-- ==== Sys2Proof/Word.lean ====
section
/-! DEFINITION. The word types of the machine: the widths that spec/00_scope.md R6 and R7 fix. -/

namespace Sys2Proof

/-- A 16-bit data word (R6). -/
abbrev Word := BitVec 16

/-- The smallest addressable unit of data space (R100). -/
abbrev Byte := BitVec 8

/-- A 24-bit instruction word (R6, R150). -/
abbrev ProgWord := BitVec 24

/-- A 23-bit program address; bit 0 of the PC is always 0 (R7, R30). -/
abbrev PcAddr := BitVec 23

/-- A 40-bit accumulator (R57). -/
abbrev AccWord := BitVec 40

/-- The register field of an instruction word: the number of one of W0 to W15 (R20, R170). -/
abbrev RegNum := BitVec 4

end Sys2Proof
end

