-- ==== Sys2Proof/Syntax.lean ====
section
/-! DEFINITION. The instructions: one constructor of `Instr` for each row of spec/opcode_table.json, in the table's
order, with the fields of that row's encoding (spec/30_encoding.md R170) as its arguments. -/

namespace Sys2Proof

/-- The addressing modes of the fields `p`, `q`, `g` and `h` (R170, R157, R200). -/
inductive Mode where
  /-- `Wn` -/
  | direct
  /-- `[Wn]` -/
  | indirect
  /-- `[Wn--]` -/
  | postDec
  /-- `[Wn++]` -/
  | postInc
  /-- `[--Wn]` -/
  | preDec
  /-- `[++Wn]` -/
  | preInc
  /-- `[Wn+Wb]`, with `Wb` the register the instruction names in its field `w` -/
  | offset
  deriving DecidableEq, Repr

/-- An operand: an addressing mode and the register it names. -/
structure Operand where
  mode : Mode
  reg : RegNum
  deriving DecidableEq, Repr

/-- The accumulator that field `A` selects (R170). -/
inductive Acc where
  | accA
  | accB
  deriving DecidableEq, Repr

/-- `Wm*Wn`: the operand pairs of the DSP multiplies (R303). -/
inductive MulPair where
  | w4w5
  | w4w6
  | w4w7
  | w5w6
  | w5w7
  | w6w7
  deriving DecidableEq, Repr

/-- The amount by which a prefetch moves its pointer: `kx`, `ky` of R303, or nothing. -/
inductive PrefetchStep where
  | zero
  | plus2
  | plus4
  | plus6
  | minus6
  | minus4
  | minus2
  deriving DecidableEq, Repr

/-- The X or Y prefetch operation of fields `i` and `j` (R303, R339). `second` selects the second pointer of the
space: W9 and not W8 in X, W11 and not W10 in Y. `indexed` is `[W9+W12]` in X and `[W11+W12]` in Y. -/
inductive Prefetch where
  | none
  | pointer (second : Bool) (step : PrefetchStep)
  | indexed
  deriving DecidableEq, Repr

/-- The accumulator write-back of field `a` (R338). -/
inductive WriteBack where
  | w13
  | w13Inc
  | none
  deriving DecidableEq, Repr

/-- The instructions. `byte` is field `B` (1 = byte mode), `toFile` is field `D` (1 = the file register is the
destination, 0 = WREG), `b` is the register of field `w`, `off` a signed word offset, `target` a 23-bit address. -/
inductive Instr where
  | nop
  | call (target : PcAddr)
  | goto (target : PcAddr)
  | retlw (byte : Bool) (lit : BitVec 10) (d : RegNum)
  | ret
  | retfie
  | rcall (off : BitVec 16)
  | doLit (count : BitVec 14) (off : BitVec 16)
  | doReg (r : RegNum) (off : BitVec 16)
  | repeatLit (count : BitVec 14)
  | repeatReg (r : RegNum)
  | movLit16 (lit : BitVec 16) (d : RegNum)
  | bra (off : BitVec 16)
  | addReg (b : RegNum) (byte : Bool) (dst src : Operand)
  | addLit5 (b : RegNum) (byte : Bool) (dst : Operand) (lit : BitVec 5)
  | mov (b : RegNum) (byte : Bool) (dst src : Operand)
  | push (r : RegNum)
  | pop (d : RegNum)
  | movFromFile (f : BitVec 16) (d : RegNum)
  | movToFile (f : BitVec 16) (r : RegNum)
  | bsetInd (bit : BitVec 4) (byte : Bool) (src : Operand)
  | bclrInd (bit : BitVec 4) (byte : Bool) (src : Operand)
  | btscInd (bit : BitVec 4) (src : Operand)
  | bsetFile (bit : BitVec 4) (f : BitVec 13)
  | bclrFile (bit : BitVec 4) (f : BitVec 13)
  | btscFile (bit : BitVec 4) (f : BitVec 13)
  | addLit10 (byte : Bool) (lit : BitVec 10) (d : RegNum)
  | movLit8 (lit : BitVec 8) (d : RegNum)
  | addFile (byte toFile : Bool) (f : BitVec 13)
  | movWregToFile (byte : Bool) (f : BitVec 13)
  | mulUU (b d : RegNum) (src : Operand)
  | mulUS (b d : RegNum) (src : Operand)
  | mulSU (b d : RegNum) (src : Operand)
  | mulSS (b d : RegNum) (src : Operand)
  | tblrdl (byte : Bool) (dst src : Operand)
  | mulFile (byte : Bool) (f : BitVec 13)
  | movDLoad (d : RegNum) (src : Operand)
  | movDStore (dst : Operand) (r : RegNum)
  | movFile (byte toFile : Bool) (f : BitVec 13)
  | mac (m : MulPair) (a : Acc) (xd yd : BitVec 2) (x y : Prefetch) (wb : WriteBack)
  | mpy (m : MulPair) (a : Acc) (xd yd : BitVec 2) (x y : Prefetch)
  | msc (m : MulPair) (a : Acc) (xd yd : BitVec 2) (x y : Prefetch) (wb : WriteBack)
  | mpyN (m : MulPair) (a : Acc) (xd yd : BitVec 2) (x y : Prefetch)
  | sftacReg (a : Acc) (r : RegNum)
  | sftacLit (a : Acc) (amount : BitVec 6)
  | addAccSrc (a : Acc) (b : RegNum) (shift : BitVec 4) (src : Operand)
  | lac (a : Acc) (b : RegNum) (shift : BitVec 4) (src : Operand)
  | addAcc (a : Acc)
  | sac (a : Acc) (b : RegNum) (shift : BitVec 4) (dst : Operand)
  | sacR (a : Acc) (b : RegNum) (shift : BitVec 4) (dst : Operand)
  | slOne (byte : Bool) (dst src : Operand)
  | lsrOne (byte : Bool) (dst src : Operand)
  | asrOne (byte : Bool) (dst src : Operand)
  | slFile (byte toFile : Bool) (f : BitVec 13)
  | lsrFile (byte toFile : Bool) (f : BitVec 13)
  | asrFile (byte toFile : Bool) (f : BitVec 13)
  | divSW (m n : RegNum)
  | divSD (hi lo n : RegNum)
  | divUW (m n : RegNum)
  | divUD (hi lo n : RegNum)
  | divF (m n : RegNum)
  | slReg (b d r : RegNum)
  | slLit (b d : RegNum) (k : BitVec 4)
  | lsrReg (b d r : RegNum)
  | lsrLit (b d : RegNum) (k : BitVec 4)
  | asrReg (b d r : RegNum)
  | asrLit (b d : RegNum) (k : BitVec 4)
  | macSq (m : BitVec 2) (a : Acc) (xd yd : BitVec 2) (x y : Prefetch)
  | mpySq (m : BitVec 2) (a : Acc) (xd yd : BitVec 2) (x y : Prefetch)
  | edac (m : BitVec 2) (a : Acc) (xd : BitVec 2) (x y : Prefetch)
  | ed (m : BitVec 2) (a : Acc) (xd : BitVec 2) (x y : Prefetch)
  | lnk (lit : BitVec 14)
  | ulnk
  | se (d : RegNum) (src : Operand)
  | ze (d : RegNum) (src : Operand)
  | disi (lit : BitVec 14)
  | reset
  | pwrsav (k : BitVec 1)
  | popS
  | pushS
  deriving DecidableEq, Repr

/-- How many program words the instruction occupies (R151, R401, R403, R460). -/
def Instr.words : Instr → Nat
  | .call _ | .goto _ | .doLit _ _ | .doReg _ _ => 2
  | _ => 1

end Sys2Proof
end

