-- ==== Sys2Proof/Config.lean ====
section
/-! DEFINITION. What an implementation fixes (spec/00_scope.md R10) and the free values: opaque constants, one for
each kind of value that the spec leaves open while the machine goes on. -/

namespace Sys2Proof

/-- The sources of traps, at most eight (R8, R500): the four that DS70204 names (R501), and the four that it does not name,
which nothing inside the CPU raises (log 44). -/
inductive Trap where
  | arithmetic
  | stack
  | address
  | illegal
  | other (n : Fin 4)
  deriving DecidableEq, Repr

/-- What can be entered: a trap, or an interrupt of one of the at most 118 sources (R8, R500). -/
inductive Exc where
  | trap (t : Trap)
  | irq (source : Fin 118)
  deriving DecidableEq, Repr

/-- The CPU registers that data space shows (R62). -/
inductive Sfr where
  | w (r : RegNum)
  | splim
  | accL (a : Acc)
  | accH (a : Acc)
  | accU (a : Acc)
  | pcl
  | pch
  | tblpag
  | psvpag
  | rcount
  | dcount
  | dostartl
  | dostarth
  | doendl
  | doendh
  | sr
  | corcon
  | modcon
  | xmodsrt
  | xmodend
  | ymodsrt
  | ymodend
  | xbrev
  | disicnt
  deriving DecidableEq, Repr

/-- DESIGN CHOICE (log 41). The `k`-th value that the spec leaves open, `n` bits wide: the `draw(n)` of R13. It has no
body, so nothing can be proved of the value. -/
opaque Config.free (n k : Nat) : BitVec n

/-- DESIGN CHOICE (log 7). The byte that RAM address `a` holds after a device Reset that happens when `k` free values
have been used: R63 and D30 make every RAM byte unknown after a reset. -/
opaque Config.ramAfterReset (k a : Nat) : Byte

/-- DESIGN CHOICE (log 13). `VECTOR(e)` of R520 for an exception that the device's own list does not name. -/
opaque Config.vector (e : Exc) : PcAddr

/-- DESIGN CHOICE (log 4). What an address that the memory does not list reads as, in data RAM and in program memory. -/
def Config.unwritten : Byte := 0

/-- The parameters of R10 that a device fixes, as plain data. A step never changes them (log 8). -/
structure Device where
  /-- `XY_BOUNDARY`: the first byte of Y data space. -/
  yStart : Word
  /-- `XY_BOUNDARY`: the last byte of Y data space. -/
  yEnd : Word
  /-- `RAM_TOP`: the highest implemented data RAM address. -/
  ramTop : Word
  /-- `PROG_TOP`: the highest implemented program memory address. -/
  progTop : PcAddr
  /-- `SFR_ADDR`: the even data addresses below 0x0800 of the CPU registers (R62, R105, D7). -/
  sfrAddr : List (Sfr × Word)
  /-- `VECTOR`: the handler addresses that are known; any other one is `Config.vector`. -/
  vectors : List (Exc × PcAddr)
  /-- `TRAP_LEVEL` less 8, of the arithmetic error trap. -/
  levelArithmetic : BitVec 3
  /-- `TRAP_LEVEL` less 8, of the stack error trap. -/
  levelStack : BitVec 3
  /-- `TRAP_LEVEL` less 8, of the address error trap. -/
  levelAddress : BitVec 3
  /-- `TRAP_LEVEL` less 8, of the illegal address error trap. -/
  levelIllegal : BitVec 3
  /-- `TRAP_LEVEL` less 8, of the four traps that the spec does not name. -/
  levelOther : Vector (BitVec 3) 4
  /-- `N_INTERRUPT_SOURCES`: a request from a source of this number or above is none (R8). -/
  interruptSources : Nat
  /-- `N_TRAP_SOURCES`: the named traps and the first of the others, so many in all (R8). -/
  trapSources : Nat
  /-- `TIE_BREAK`: of several pending traps of one level, the one named first here is taken first. -/
  tieOrder : List Trap
  /-- `MMAP_WORD_WRITE_INITS_W` (R26, D6). -/
  mmapWordWriteInitsW : Bool
  /-- `FAULTING_ACCESS_PERFORMED` (R202, D10). -/
  faultingAccessPerformed : Bool
  /-- Whether a word access at an odd address takes the AddressError trap, instead of ending the run: a parameter as
  93_implementation_defined.md says of G8 (R109, R504, D3, log 11). -/
  misalignedTraps : Bool
  /-- `EXTERNAL_BUS`: RAM can sit on the program memory bus (R105). -/
  externalBus : Bool
  /-- `RESET_SR_LOW6` is `table` (R38, D8). -/
  resetSrLow6Table : Bool
  deriving DecidableEq, Repr

/-- The default data addresses of the CPU registers (R62; but for W2 they are PRESUMED, log 9). -/
def defaultSfrAddr : List (Sfr × Word) :=
  [(.w 0, 0x0000), (.w 1, 0x0002), (.w 2, 0x0004), (.w 3, 0x0006), (.w 4, 0x0008), (.w 5, 0x000A), (.w 6, 0x000C),
   (.w 7, 0x000E), (.w 8, 0x0010), (.w 9, 0x0012), (.w 10, 0x0014), (.w 11, 0x0016), (.w 12, 0x0018), (.w 13, 0x001A),
   (.w 14, 0x001C), (.w 15, 0x001E), (.splim, 0x0020), (.accL .accA, 0x0022), (.accH .accA, 0x0024),
   (.accU .accA, 0x0026), (.accL .accB, 0x0028), (.accH .accB, 0x002A), (.accU .accB, 0x002C), (.pcl, 0x002E)] ++
  [(.pch, 0x0030), (.tblpag, 0x0032), (.psvpag, 0x0034), (.rcount, 0x0036), (.dcount, 0x0038), (.dostartl, 0x003A),
   (.dostarth, 0x003C), (.doendl, 0x003E), (.doendh, 0x0040), (.sr, 0x0042), (.corcon, 0x0044), (.modcon, 0x0046),
   (.xmodsrt, 0x0048), (.xmodend, 0x004A), (.ymodsrt, 0x004C), (.ymodend, 0x004E), (.xbrev, 0x0050),
   (.disicnt, 0x0052)]

/-- The device that `State.reset` stands for: the defaults of R10 where R10 gives one (TRAP_LEVEL: R510, G4), else a
DESIGN CHOICE (log 8). The illegal address trap takes the level of the address error trap (log 14, PRESUMED). -/
def Device.default : Device where
  yStart := 0x4800
  yEnd := 0x7FFF
  ramTop := 0x7FFF
  progTop := 0x7FFFFE
  sfrAddr := defaultSfrAddr
  vectors := []
  levelArithmetic := 3
  levelStack := 4
  levelAddress := 5
  levelIllegal := 5
  levelOther := #v[6, 6, 6, 6]
  interruptSources := 118
  trapSources := 8
  tieOrder := [.illegal, .address, .stack, .arithmetic]
  mmapWordWriteInitsW := false
  faultingAccessPerformed := false
  misalignedTraps := false
  externalBus := false
  resetSrLow6Table := false

end Sys2Proof
end

