-- ==== Sys2Proof/WellFormed.lean ====
section
/-! DEFINITION. Which terms of `Instr` an instruction word can hold: the operand conditions that the encodings of
spec/30_encoding.md R170 impose. `encode` is meant for these terms, and `decode` gives no other. -/

namespace Sys2Proof

/-- The operand form has a code in a field that has no `Wb` to offset by: every form but `[Wn+Wb]` (R157, R170). -/
def Operand.noOffset (o : Operand) : Bool :=
  match o.mode with
  | .offset => false
  | .direct | .indirect | .postDec | .postInc | .preDec | .preInc => true

/-- `MOV Wn, [W15++]`, the words of the row `PUSH Wn` (R159, R220). -/
def isPushForm (b : RegNum) (byte : Bool) (dst src : Operand) : Bool :=
  b == 0 && !byte && dst == ⟨.postInc, 15⟩ && src.mode == .direct

/-- `MOV [--W15], Wd`, the words of the row `POP Wd` (R159, R221). -/
def isPopForm (b : RegNum) (byte : Bool) (dst src : Operand) : Bool :=
  b == 0 && !byte && src == ⟨.preDec, 15⟩ && dst.mode == .direct

/-- The term is the meaning of some instruction word. -/
def Instr.wellFormed : Instr → Bool
  | .call t | .goto t => !t.getLsbD 0
  | .mov b byte dst src => !isPushForm b byte dst src && !isPopForm b byte dst src
  | .addReg _ _ dst src | .tblrdl _ dst src => dst.noOffset && src.noOffset
  | .slOne _ dst src | .lsrOne _ dst src | .asrOne _ dst src => dst.noOffset && src.noOffset
  | .addLit5 _ _ dst _ => dst.noOffset
  | .bsetInd _ _ src | .bclrInd _ _ src | .btscInd _ src => src.noOffset
  | .mulUU _ _ src | .mulUS _ _ src | .mulSU _ _ src | .mulSS _ _ src => src.noOffset
  | .se _ src | .ze _ src => src.noOffset
  | .movFromFile f _ | .movToFile f _ => !f.getLsbD 0
  | .bsetFile _ f | .bclrFile _ f | .btscFile _ f => !f.getLsbD 0
  | .movDLoad d src => !d.getLsbD 0 && src.noOffset
  | .movDStore dst r => dst.noOffset && !r.getLsbD 0
  | .lnk k => !k.getLsbD 0
  | .nop | .retlw _ _ _ | .ret | .retfie | .rcall _ | .doLit _ _ | .doReg _ _ => true
  | .repeatLit _ | .repeatReg _ | .movLit16 _ _ | .bra _ | .push _ | .pop _ => true
  | .addLit10 _ _ _ | .movLit8 _ _ | .addFile _ _ _ | .movWregToFile _ _ | .mulFile _ _ | .movFile _ _ _ => true
  | .mac _ _ _ _ _ _ _ | .mpy _ _ _ _ _ _ | .msc _ _ _ _ _ _ _ | .mpyN _ _ _ _ _ _ => true
  | .sftacReg _ _ | .sftacLit _ _ | .addAccSrc _ _ _ _ | .lac _ _ _ _ | .addAcc _ | .sac _ _ _ _ | .sacR _ _ _ _ => true
  | .slFile _ _ _ | .lsrFile _ _ _ | .asrFile _ _ _ => true
  | .divSW _ _ | .divSD _ _ _ | .divUW _ _ | .divUD _ _ _ | .divF _ _ => true
  | .slReg _ _ _ | .slLit _ _ _ | .lsrReg _ _ _ | .lsrLit _ _ _ | .asrReg _ _ _ | .asrLit _ _ _ => true
  | .macSq _ _ _ _ _ _ | .mpySq _ _ _ _ _ _ | .edac _ _ _ _ _ | .ed _ _ _ _ _ => true
  | .ulnk | .disi _ | .reset | .pwrsav _ | .popS | .pushS => true

end Sys2Proof
end

