-- ==== Sys2Proof/Decode.lean ====
section
/-! DEFINITION. The decoder, total on any bytes and rejecting by name, and after it the encoder, both from the patterns
of spec/30_encoding.md R170 and spec/opcode_table.json. Those patterns are recalled, not normative (PRESUMED, log 1);
the codes inside the DSP fields `m`, `i`, `j`, `a` are PRESUMED from the family (log 27). -/

namespace Sys2Proof

/-- Why bytes are no instruction. -/
inductive Reject where
  /-- No row of the opcode table matches the first word (R154, U1). -/
  | unknownOpcode
  /-- An addressing-mode field holds a code that the instruction has no form for (R157, R170). -/
  | reservedMode
  /-- The field `m` of a DSP multiply holds a code that names no operand pair (R303). -/
  | reservedPair
  /-- The second word of a two-word instruction does not match the row (R151, R152). -/
  | badSecondWord
  /-- There are too few bytes for the words of the instruction (R151). -/
  | truncated
  deriving DecidableEq, Repr

/-! ### Fields -/

/-- Field `len` bits wide whose lowest bit is bit `lo` of the word (R11). -/
def field (w : ProgWord) (lo len : Nat) : BitVec len := w.extractLsb' lo len

/-- Bit `i` of the word (R11). -/
def flag (w : ProgWord) (i : Nat) : Bool := w.getLsbD i

/-- The word that holds `x` as the field whose lowest bit is bit `lo`, and 0 elsewhere. -/
def place {n : Nat} (lo : Nat) (x : BitVec n) : ProgWord := x.setWidth 24 <<< lo

/-- The codes of the fields `p`, `q`, `g`, `h` (R170). -/
def modeOf (c : BitVec 3) : Mode :=
  match c.toNat with
  | 0 => .direct
  | 1 => .indirect
  | 2 => .postDec
  | 3 => .postInc
  | 4 => .preDec
  | 5 => .preInc
  | _ => .offset

/-- The operand of a mode field and a register field, where `[Wn+Wb]` is one of the forms. -/
def operandAny (c : BitVec 3) (r : RegNum) : Operand := ⟨modeOf c, r⟩

/-- The operand of a mode field and a register field, where `[Wn+Wb]` is not one of the forms. -/
def operandPlain (c : BitVec 3) (r : RegNum) : Except Reject Operand :=
  match modeOf c with
  | .offset => .error .reservedMode
  | .direct => .ok ⟨.direct, r⟩
  | .indirect => .ok ⟨.indirect, r⟩
  | .postDec => .ok ⟨.postDec, r⟩
  | .postInc => .ok ⟨.postInc, r⟩
  | .preDec => .ok ⟨.preDec, r⟩
  | .preInc => .ok ⟨.preInc, r⟩

/-- Field `A`: 0 = A, 1 = B (R170). -/
def accOf (bit : Bool) : Acc := if bit then .accB else .accA

/-- The codes of the three-bit field `m` (PRESUMED, log 27; R303 gives the pairs). -/
def pairOf (c : BitVec 3) : Except Reject MulPair :=
  match c.toNat with
  | 0 => .ok .w4w5
  | 1 => .ok .w4w6
  | 2 => .ok .w4w7
  | 4 => .ok .w5w6
  | 5 => .ok .w5w7
  | 6 => .ok .w6w7
  | _ => .error .reservedPair

/-- The codes of the fields `i` and `j` (PRESUMED, log 27; R303 gives the pointers and the steps). -/
def prefetchOf (c : BitVec 4) : Prefetch :=
  match c.toNat with
  | 0 => .pointer false .zero
  | 1 => .pointer false .plus2
  | 2 => .pointer false .plus4
  | 3 => .pointer false .plus6
  | 4 => .none
  | 5 => .pointer false .minus6
  | 6 => .pointer false .minus4
  | 7 => .pointer false .minus2
  | 8 => .pointer true .zero
  | 9 => .pointer true .plus2
  | 10 => .pointer true .plus4
  | 11 => .pointer true .plus6
  | 12 => .indexed
  | 13 => .pointer true .minus6
  | 14 => .pointer true .minus4
  | _ => .pointer true .minus2

/-- The codes 00, 01 and 10 of field `a` (PRESUMED, log 27); 11 is the row of MPY and MPY.N. -/
def writeBackOf (c : BitVec 2) : WriteBack :=
  match c.toNat with
  | 0 => .w13
  | 1 => .w13Inc
  | _ => .none

/-! ### One-word instructions, by the top four bits of the word -/

/-- Words `0000 ....`: NOP, the returns, RCALL, REPEAT. The two-word rows are read by `decodeTwo`. -/
def decode0 (w : ProgWord) : Except Reject Instr :=
  match (field w 16 4).toNat with
  | 0 => .ok .nop
  | 5 => if flag w 15 then .error .unknownOpcode else .ok (.retlw (flag w 14) (field w 4 10) (field w 0 4))
  | 6 => if field w 0 16 = 0x0000 then .ok .ret else if field w 0 16 = 0x4000 then .ok .retfie else .error .unknownOpcode
  | 7 => .ok (.rcall (field w 0 16))
  | 9 =>
    if field w 14 2 = 0 then .ok (.repeatLit (field w 0 14))
    else if field w 4 12 = 0x800 then .ok (.repeatReg (field w 0 4))
    else .error .unknownOpcode
  | _ => .error .unknownOpcode

/-- Words `0100 0...`: ADD with a register source, or with a five-bit literal where the mode field reads `11.`. -/
def decode4 (w : ProgWord) : Except Reject Instr :=
  if flag w 19 then .error .unknownOpcode
  else do
    let dst ← operandPlain (field w 11 3) (field w 7 4)
    if field w 5 2 = 3 then .ok (.addLit5 (field w 15 4) (flag w 14) dst (field w 0 5))
    else do
      let src ← operandPlain (field w 4 3) (field w 0 4)
      .ok (.addReg (field w 15 4) (flag w 14) dst src)

/-- Words `0111 1...`: MOV, and its aliases PUSH and POP, which have rows of their own. -/
def decode7 (w : ProgWord) : Except Reject Instr :=
  if flag w 19 then
    let b := field w 15 4
    let byte := flag w 14
    let dst := operandAny (field w 11 3) (field w 7 4)
    let src := operandAny (field w 4 3) (field w 0 4)
    if isPushForm b byte dst src then .ok (.push src.reg)
    else if isPopForm b byte dst src then .ok (.pop dst.reg)
    else .ok (.mov b byte dst src)
  else .error .unknownOpcode

/-- Words `1000 ....`: MOV between a register and a file address; the field holds address bits 15:1. -/
def decode8 (w : ProgWord) : Except Reject Instr :=
  if flag w 19 then .ok (.movToFile (field w 4 15 ++ 0#1) (field w 0 4))
  else .ok (.movFromFile (field w 4 15 ++ 0#1) (field w 0 4))

/-- The bit number of a file-register bit instruction: bits 2:0 in the field `bbb`, bit 3 in bit 0 of the word, so that
the word is a byte operation at `f + bit[3]` on bit `bit[2:0]`, as R260 says it is encoded (log 28). -/
def bitNumber (w : ProgWord) : BitVec 4 := field w 0 1 ++ field w 13 3

/-- The file address of a file-register bit instruction: bits 12:1 of the word, an even address (R260). -/
def bitFile (w : ProgWord) : BitVec 13 := field w 1 12 ++ 0#1

/-- Words `1010 ....`: bit instructions. -/
def decodeA (w : ProgWord) : Except Reject Instr :=
  match (field w 16 4).toNat with
  | 0 =>
    if field w 11 1 = 0 ∧ field w 7 3 = 0 then do
      let src ← operandPlain (field w 4 3) (field w 0 4)
      .ok (.bsetInd (field w 12 4) (flag w 10) src)
    else .error .unknownOpcode
  | 1 =>
    if field w 11 1 = 0 ∧ field w 7 3 = 0 then do
      let src ← operandPlain (field w 4 3) (field w 0 4)
      .ok (.bclrInd (field w 12 4) (flag w 10) src)
    else .error .unknownOpcode
  | 7 =>
    if field w 7 5 = 0 then do
      let src ← operandPlain (field w 4 3) (field w 0 4)
      .ok (.btscInd (field w 12 4) src)
    else .error .unknownOpcode
  | 8 => .ok (.bsetFile (bitNumber w) (bitFile w))
  | 9 => .ok (.bclrFile (bitNumber w) (bitFile w))
  | 15 => .ok (.btscFile (bitNumber w) (bitFile w))
  | _ => .error .unknownOpcode

/-- Words `1011 ....`: literal and file-register forms, MUL, TBLRDL, MOV.D. -/
def decodeB (w : ProgWord) : Except Reject Instr :=
  match (field w 16 4).toNat with
  | 0 => if flag w 15 then .error .unknownOpcode else .ok (.addLit10 (flag w 14) (field w 4 10) (field w 0 4))
  | 3 => if field w 12 4 = 0xC then .ok (.movLit8 (field w 4 8) (field w 0 4)) else .error .unknownOpcode
  | 4 => if flag w 15 then .error .unknownOpcode else .ok (.addFile (flag w 14) (flag w 13) (field w 0 13))
  | 7 => if flag w 15 && flag w 13 then .ok (.movWregToFile (flag w 14) (field w 0 13)) else .error .unknownOpcode
  | 8 => do
    let src ← operandPlain (field w 4 3) (field w 0 4)
    if flag w 15 then .ok (.mulUS (field w 11 4) (field w 7 4) src) else .ok (.mulUU (field w 11 4) (field w 7 4) src)
  | 9 => do
    let src ← operandPlain (field w 4 3) (field w 0 4)
    if flag w 15 then .ok (.mulSS (field w 11 4) (field w 7 4) src) else .ok (.mulSU (field w 11 4) (field w 7 4) src)
  | 10 =>
    if flag w 15 then .error .unknownOpcode
    else do
      let dst ← operandPlain (field w 11 3) (field w 7 4)
      let src ← operandPlain (field w 4 3) (field w 0 4)
      .ok (.tblrdl (flag w 14) dst src)
  | 12 =>
    if flag w 15 || flag w 13 then .error .unknownOpcode else .ok (.mulFile (flag w 14) (field w 0 13))
  | 14 =>
    if field w 11 5 = 0 ∧ field w 7 1 = 0 then do
      let src ← operandPlain (field w 4 3) (field w 0 4)
      .ok (.movDLoad (field w 8 3 ++ 0#1) src)
    else if field w 14 2 = 2 ∧ field w 4 3 = 0 ∧ field w 0 1 = 0 then do
      let dst ← operandPlain (field w 11 3) (field w 7 4)
      .ok (.movDStore dst (field w 1 3 ++ 0#1))
    else .error .unknownOpcode
  | 15 => if flag w 15 then .ok (.movFile (flag w 14) (flag w 13) (field w 0 13)) else .error .unknownOpcode
  | _ => .error .unknownOpcode

/-- Words `1100 0mmm`: MAC, MPY, MSC, MPY.N of two registers; `aa` = 11 selects MPY and MPY.N. -/
def decodeMac (w : ProgWord) : Except Reject Instr := do
  let m ← pairOf (field w 16 3)
  let a := accOf (flag w 15)
  let x := prefetchOf (field w 6 4)
  let y := prefetchOf (field w 2 4)
  if field w 0 2 = 3 then
    if flag w 14 then .ok (.mpyN m a (field w 12 2) (field w 10 2) x y)
    else .ok (.mpy m a (field w 12 2) (field w 10 2) x y)
  else if flag w 14 then .ok (.msc m a (field w 12 2) (field w 10 2) x y (writeBackOf (field w 0 2)))
  else .ok (.mac m a (field w 12 2) (field w 10 2) x y (writeBackOf (field w 0 2)))

/-- Words `1100 ....`: DSP multiplies and accumulator instructions. -/
def decodeC (w : ProgWord) : Except Reject Instr :=
  let a := accOf (flag w 15)
  let b := field w 11 4
  let r := field w 7 4
  let x := operandAny (field w 4 3) (field w 0 4)
  match (field w 16 4).toNat with
  | 8 =>
    if field w 4 2 = 0 ∧ field w 6 9 = 0 then .ok (.sftacReg a (field w 0 4))
    else if field w 6 9 = 1 then .ok (.sftacLit a (field w 0 6))
    else .error .unknownOpcode
  | 9 => .ok (.addAccSrc a b r x)
  | 10 => .ok (.lac a b r x)
  | 11 => if field w 0 15 = 0 then .ok (.addAcc a) else .error .unknownOpcode
  | 12 => .ok (.sac a b r x)
  | 13 => .ok (.sacR a b r x)
  | _ => if flag w 19 then .error .unknownOpcode else decodeMac w

/-- Words `1101 ....`: shifts and divides. -/
def decodeD (w : ProgWord) : Except Reject Instr :=
  match (field w 16 4).toNat with
  | 0 =>
    if flag w 15 then .error .unknownOpcode
    else do
      let dst ← operandPlain (field w 11 3) (field w 7 4)
      let src ← operandPlain (field w 4 3) (field w 0 4)
      .ok (.slOne (flag w 14) dst src)
  | 1 => do
    let dst ← operandPlain (field w 11 3) (field w 7 4)
    let src ← operandPlain (field w 4 3) (field w 0 4)
    if flag w 15 then .ok (.asrOne (flag w 14) dst src) else .ok (.lsrOne (flag w 14) dst src)
  | 4 => if flag w 15 then .error .unknownOpcode else .ok (.slFile (flag w 14) (flag w 13) (field w 0 13))
  | 5 =>
    if flag w 15 then .ok (.asrFile (flag w 14) (flag w 13) (field w 0 13))
    else .ok (.lsrFile (flag w 14) (flag w 13) (field w 0 13))
  | 8 =>
    if field w 4 2 = 0 then
      match flag w 15, flag w 6 with
      | false, false => .ok (.divSW (field w 7 4) (field w 0 4))
      | false, true => .ok (.divSD (field w 11 4) (field w 7 4) (field w 0 4))
      | true, false => .ok (.divUW (field w 7 4) (field w 0 4))
      | true, true => .ok (.divUD (field w 11 4) (field w 7 4) (field w 0 4))
    else .error .unknownOpcode
  | 9 =>
    if flag w 15 = false ∧ field w 4 7 = 0 then .ok (.divF (field w 11 4) (field w 0 4)) else .error .unknownOpcode
  | 13 =>
    if flag w 15 then .error .unknownOpcode
    else if field w 4 3 = 0 then .ok (.slReg (field w 11 4) (field w 7 4) (field w 0 4))
    else if field w 4 3 = 4 then .ok (.slLit (field w 11 4) (field w 7 4) (field w 0 4))
    else .error .unknownOpcode
  | 14 =>
    if field w 4 3 = 0 then
      if flag w 15 then .ok (.asrReg (field w 11 4) (field w 7 4) (field w 0 4))
      else .ok (.lsrReg (field w 11 4) (field w 7 4) (field w 0 4))
    else if field w 4 3 = 4 then
      if flag w 15 then .ok (.asrLit (field w 11 4) (field w 7 4) (field w 0 4))
      else .ok (.lsrLit (field w 11 4) (field w 7 4) (field w 0 4))
    else .error .unknownOpcode
  | _ => .error .unknownOpcode

/-- Words `1111 00mm`: the square forms of MAC and MPY, EDAC and ED. -/
def decodeSquare (w : ProgWord) : Except Reject Instr :=
  let m := field w 16 2
  let a := accOf (flag w 15)
  let x := prefetchOf (field w 6 4)
  let y := prefetchOf (field w 2 4)
  match flag w 14, (field w 0 2).toNat with
  | false, 0 => .ok (.macSq m a (field w 12 2) (field w 10 2) x y)
  | false, 1 => .ok (.mpySq m a (field w 12 2) (field w 10 2) x y)
  | true, 2 => if field w 10 2 = 0 then .ok (.edac m a (field w 12 2) x y) else .error .unknownOpcode
  | true, 3 => if field w 10 2 = 0 then .ok (.ed m a (field w 12 2) x y) else .error .unknownOpcode
  | _, _ => .error .unknownOpcode

/-- Words `1111 ....`: square forms, LNK, ULNK, SE, ZE, DISI and the inherent instructions. -/
def decodeF (w : ProgWord) : Except Reject Instr :=
  match (field w 16 4).toNat with
  | 10 =>
    if field w 14 2 = 0 ∧ field w 0 1 = 0 then .ok (.lnk (field w 0 14))
    else if field w 0 16 = 0x8000 then .ok .ulnk
    else .error .unknownOpcode
  | 11 =>
    if field w 11 4 = 0 then do
      let src ← operandPlain (field w 4 3) (field w 0 4)
      if flag w 15 then .ok (.ze (field w 7 4) src) else .ok (.se (field w 7 4) src)
    else .error .unknownOpcode
  | 12 => if field w 14 2 = 0 then .ok (.disi (field w 0 14)) else .error .unknownOpcode
  | 14 =>
    if field w 0 16 = 0x0000 then .ok .reset
    else if field w 1 15 = 0x2000 then .ok (.pwrsav (field w 0 1))
    else if field w 0 16 = 0x8000 then .ok .popS
    else if field w 0 16 = 0xA000 then .ok .pushS
    else .error .unknownOpcode
  | _ => if field w 18 2 = 0 then decodeSquare w else .error .unknownOpcode

/-- The one-word instruction that a word holds (R170). -/
def decodeOne (w : ProgWord) : Except Reject Instr :=
  match (field w 20 4).toNat with
  | 0 => decode0 w
  | 2 => .ok (.movLit16 (field w 4 16) (field w 0 4))
  | 3 => if field w 16 4 = 7 then .ok (.bra (field w 0 16)) else .error .unknownOpcode
  | 4 => decode4 w
  | 7 => decode7 w
  | 8 => decode8 w
  | 10 => decodeA w
  | 11 => decodeB w
  | 12 => decodeC w
  | 13 => decodeD w
  | 15 => decodeF w
  | _ => .error .unknownOpcode

/-- How many words the instruction with this first word has: two for CALL, GOTO and DO, else one (R151). -/
def firstWordLength (w : ProgWord) : Nat :=
  match (field w 16 8).toNat with
  | 2 | 4 | 8 => 2
  | _ => 1

/-- The target of CALL and GOTO: bits 22:16 from the second word, bits 15:1 from the first (R170). -/
def targetOf (w1 w2 : ProgWord) : PcAddr := field w2 0 7 ++ (field w1 1 15 ++ 0#1)

/-- The two-word instruction that two words hold: CALL, GOTO, DO (R151, R170). -/
def decodeTwo (w1 w2 : ProgWord) : Except Reject Instr :=
  match (field w1 16 8).toNat with
  | 2 =>
    if flag w1 0 then .error .unknownOpcode
    else if field w2 7 17 = 0 then .ok (.call (targetOf w1 w2)) else .error .badSecondWord
  | 4 =>
    if flag w1 0 then .error .unknownOpcode
    else if field w2 7 17 = 0 then .ok (.goto (targetOf w1 w2)) else .error .badSecondWord
  | 8 =>
    if field w2 16 8 = 0 then
      if field w1 14 2 = 0 then .ok (.doLit (field w1 0 14) (field w2 0 16))
      else if field w1 4 12 = 0x800 then .ok (.doReg (field w1 0 4) (field w2 0 16))
      else .error .unknownOpcode
    else .error .badSecondWord
  | _ => .error .unknownOpcode

/-- A program word from its three bytes, the lowest address first (log 3). -/
def wordOfBytes (b0 b1 b2 : Byte) : ProgWord := place 16 b2 ||| place 8 b1 ||| place 0 b0

/-- The instruction at the head of the bytes and the bytes after it, or the reason why there is none. -/
def decode : List Byte → Except Reject (Instr × List Byte)
  | b0 :: b1 :: b2 :: rest =>
    let w1 := wordOfBytes b0 b1 b2
    if firstWordLength w1 = 2 then
      match rest with
      | c0 :: c1 :: c2 :: rest2 => (decodeTwo w1 (wordOfBytes c0 c1 c2)).map fun i => (i, rest2)
      | _ => .error .truncated
    else (decodeOne w1).map fun i => (i, rest)
  | _ => .error .truncated

/-! ### The encoder -/

/-- The code of an addressing mode (R170); `[Wn+Wb]` is written 110. -/
def modeCode : Mode → BitVec 3
  | .direct => 0
  | .indirect => 1
  | .postDec => 2
  | .postInc => 3
  | .preDec => 4
  | .preInc => 5
  | .offset => 6

/-- The code of an accumulator (R170). -/
def accBit : Acc → BitVec 1
  | .accA => 0
  | .accB => 1

/-- The code of an operand pair (log 27). -/
def pairCode : MulPair → BitVec 3
  | .w4w5 => 0
  | .w4w6 => 1
  | .w4w7 => 2
  | .w5w6 => 4
  | .w5w7 => 5
  | .w6w7 => 6

/-- The code of a prefetch step within its pointer (log 27). -/
def stepCode : PrefetchStep → BitVec 3
  | .zero => 0
  | .plus2 => 1
  | .plus4 => 2
  | .plus6 => 3
  | .minus6 => 5
  | .minus4 => 6
  | .minus2 => 7

/-- The code of a prefetch operation (log 27). -/
def prefetchCode : Prefetch → BitVec 4
  | .none => 4
  | .indexed => 12
  | .pointer second step => BitVec.ofBool second ++ stepCode step

/-- The code of a write-back (log 27). -/
def writeBackCode : WriteBack → BitVec 2
  | .w13 => 0
  | .w13Inc => 1
  | .none => 2

/-- The source operand: mode code in bits 6:4, register in bits 3:0 (R170). -/
def srcCode (o : Operand) : ProgWord := place 4 (modeCode o.mode) ||| place 0 o.reg

/-- The destination operand: mode code in bits 13:11, register in bits 10:7 (R170). -/
def dstCode (o : Operand) : ProgWord := place 11 (modeCode o.mode) ||| place 7 o.reg

/-- One bit of an instruction word (R170). -/
def placeBit (lo : Nat) (b : Bool) : ProgWord := place lo (BitVec.ofBool b)

/-- The fields `A`, `xx`, `yy`, `iiii`, `jjjj` of the DSP multiply rows (R170). -/
def dspCode (a : Acc) (xd yd : BitVec 2) (x y : Prefetch) : ProgWord :=
  place 15 (accBit a) ||| place 12 xd ||| place 10 yd ||| place 6 (prefetchCode x) ||| place 2 (prefetchCode y)

/-- The fields `A`, `wwww`, `rrrr` of LAC, SAC, SAC.R and ADD Ws, Acc (R170). -/
def accCode (a : Acc) (b : RegNum) (r : BitVec 4) : ProgWord := place 15 (accBit a) ||| place 11 b ||| place 7 r

/-- The fields `B`, `D` and `f` of the file-register rows (R170). -/
def fileCode (byte toFile : Bool) (f : BitVec 13) : ProgWord := placeBit 14 byte ||| placeBit 13 toFile ||| place 0 f

/-- The fields of a file-register bit instruction (R170, R260, log 28). -/
def bitFileCode (bit : BitVec 4) (f : BitVec 13) : ProgWord :=
  place 13 (bit.extractLsb' 0 3) ||| place 1 (f.extractLsb' 1 12) ||| place 0 (bit.extractLsb' 3 1)

/-- The first word of CALL and GOTO after the opcode: target bits 15:1 (R170). -/
def targetLow (t : PcAddr) : ProgWord := place 1 (t.extractLsb' 1 15)

/-- The second word of CALL and GOTO: target bits 22:16 (R170). -/
def targetHigh (t : PcAddr) : ProgWord := place 0 (t.extractLsb' 16 7)

/-- The words of an instruction (R170). Fields that the row leaves unused are written as zeros. -/
def encode : Instr → List ProgWord
  | .nop => [0x000000]
  | .call t => [place 16 0x02#8 ||| targetLow t, targetHigh t]
  | .goto t => [place 16 0x04#8 ||| targetLow t, targetHigh t]
  | .retlw byte k d => [place 16 0x05#8 ||| placeBit 14 byte ||| place 4 k ||| place 0 d]
  | .ret => [0x060000]
  | .retfie => [0x064000]
  | .rcall n => [place 16 0x07#8 ||| place 0 n]
  | .doLit k n => [place 16 0x08#8 ||| place 0 k, place 0 n]
  | .doReg r n => [place 4 0x08800#20 ||| place 0 r, place 0 n]
  | .repeatLit k => [place 16 0x09#8 ||| place 0 k]
  | .repeatReg r => [place 4 0x09800#20 ||| place 0 r]
  | .movLit16 k d => [place 20 0x2#4 ||| place 4 k ||| place 0 d]
  | .bra n => [place 16 0x37#8 ||| place 0 n]
  | .addReg b byte dst src => [place 19 0x08#5 ||| place 15 b ||| placeBit 14 byte ||| dstCode dst ||| srcCode src]
  | .addLit5 b byte dst k =>
    [place 19 0x08#5 ||| place 15 b ||| placeBit 14 byte ||| dstCode dst ||| place 5 3#2 ||| place 0 k]
  | .mov b byte dst src => [place 19 0x0F#5 ||| place 15 b ||| placeBit 14 byte ||| dstCode dst ||| srcCode src]
  | .push r => [place 4 0x781F8#20 ||| place 0 r]
  | .pop d => [place 11 0x0F00#13 ||| place 7 d ||| place 0 0x4F#7]
  | .movFromFile f d => [place 19 0x10#5 ||| place 4 (f.extractLsb' 1 15) ||| place 0 d]
  | .movToFile f r => [place 19 0x11#5 ||| place 4 (f.extractLsb' 1 15) ||| place 0 r]
  | .bsetInd bit byte src => [place 16 0xA0#8 ||| place 12 bit ||| placeBit 10 byte ||| srcCode src]
  | .bclrInd bit byte src => [place 16 0xA1#8 ||| place 12 bit ||| placeBit 10 byte ||| srcCode src]
  | .btscInd bit src => [place 16 0xA7#8 ||| place 12 bit ||| srcCode src]
  | .bsetFile bit f => [place 16 0xA8#8 ||| bitFileCode bit f]
  | .bclrFile bit f => [place 16 0xA9#8 ||| bitFileCode bit f]
  | .btscFile bit f => [place 16 0xAF#8 ||| bitFileCode bit f]
  | .addLit10 byte k d => [place 16 0xB0#8 ||| placeBit 14 byte ||| place 4 k ||| place 0 d]
  | .movLit8 k d => [place 12 0xB3C#12 ||| place 4 k ||| place 0 d]
  | .addFile byte toFile f => [place 16 0xB4#8 ||| fileCode byte toFile f]
  | .movWregToFile byte f => [place 15 0x16F#9 ||| fileCode byte true f]
  | .mulUU b d src => [place 16 0xB8#8 ||| place 11 b ||| place 7 d ||| srcCode src]
  | .mulUS b d src => [place 15 0x171#9 ||| place 11 b ||| place 7 d ||| srcCode src]
  | .mulSU b d src => [place 16 0xB9#8 ||| place 11 b ||| place 7 d ||| srcCode src]
  | .mulSS b d src => [place 15 0x173#9 ||| place 11 b ||| place 7 d ||| srcCode src]
  | .tblrdl byte dst src => [place 16 0xBA#8 ||| placeBit 14 byte ||| dstCode dst ||| srcCode src]
  | .mulFile byte f => [place 16 0xBC#8 ||| fileCode byte false f]
  | .movDLoad d src => [place 16 0xBE#8 ||| place 8 (d.extractLsb' 1 3) ||| srcCode src]
  | .movDStore dst r => [place 14 0x2FA#10 ||| dstCode dst ||| place 1 (r.extractLsb' 1 3)]
  | .movFile byte toFile f => [place 15 0x17F#9 ||| fileCode byte toFile f]
  | .mac m a xd yd x y wb =>
    [place 19 0x18#5 ||| place 16 (pairCode m) ||| dspCode a xd yd x y ||| place 0 (writeBackCode wb)]
  | .mpy m a xd yd x y => [place 19 0x18#5 ||| place 16 (pairCode m) ||| dspCode a xd yd x y ||| place 0 3#2]
  | .msc m a xd yd x y wb =>
    [place 19 0x18#5 ||| place 16 (pairCode m) ||| place 14 1#1 ||| dspCode a xd yd x y ||| place 0 (writeBackCode wb)]
  | .mpyN m a xd yd x y =>
    [place 19 0x18#5 ||| place 16 (pairCode m) ||| place 14 1#1 ||| dspCode a xd yd x y ||| place 0 3#2]
  | .sftacReg a r => [place 16 0xC8#8 ||| place 15 (accBit a) ||| place 0 r]
  | .sftacLit a k => [place 16 0xC8#8 ||| place 15 (accBit a) ||| place 6 1#1 ||| place 0 k]
  | .addAccSrc a b r src => [place 16 0xC9#8 ||| accCode a b r ||| srcCode src]
  | .lac a b r src => [place 16 0xCA#8 ||| accCode a b r ||| srcCode src]
  | .addAcc a => [place 16 0xCB#8 ||| place 15 (accBit a)]
  | .sac a b r dst => [place 16 0xCC#8 ||| accCode a b r ||| srcCode dst]
  | .sacR a b r dst => [place 16 0xCD#8 ||| accCode a b r ||| srcCode dst]
  | .slOne byte dst src => [place 16 0xD0#8 ||| placeBit 14 byte ||| dstCode dst ||| srcCode src]
  | .lsrOne byte dst src => [place 16 0xD1#8 ||| placeBit 14 byte ||| dstCode dst ||| srcCode src]
  | .asrOne byte dst src => [place 15 0x1A3#9 ||| placeBit 14 byte ||| dstCode dst ||| srcCode src]
  | .slFile byte toFile f => [place 16 0xD4#8 ||| fileCode byte toFile f]
  | .lsrFile byte toFile f => [place 16 0xD5#8 ||| fileCode byte toFile f]
  | .asrFile byte toFile f => [place 15 0x1AB#9 ||| fileCode byte toFile f]
  | .divSW m n => [place 16 0xD8#8 ||| place 7 m ||| place 0 n]
  | .divSD hi lo n => [place 16 0xD8#8 ||| place 11 hi ||| place 7 lo ||| place 6 1#1 ||| place 0 n]
  | .divUW m n => [place 15 0x1B1#9 ||| place 7 m ||| place 0 n]
  | .divUD hi lo n => [place 15 0x1B1#9 ||| place 11 hi ||| place 7 lo ||| place 6 1#1 ||| place 0 n]
  | .divF m n => [place 16 0xD9#8 ||| place 11 m ||| place 0 n]
  | .slReg b d r => [place 16 0xDD#8 ||| place 11 b ||| place 7 d ||| place 0 r]
  | .slLit b d k => [place 16 0xDD#8 ||| place 11 b ||| place 7 d ||| place 6 1#1 ||| place 0 k]
  | .lsrReg b d r => [place 16 0xDE#8 ||| place 11 b ||| place 7 d ||| place 0 r]
  | .lsrLit b d k => [place 16 0xDE#8 ||| place 11 b ||| place 7 d ||| place 6 1#1 ||| place 0 k]
  | .asrReg b d r => [place 15 0x1BD#9 ||| place 11 b ||| place 7 d ||| place 0 r]
  | .asrLit b d k => [place 15 0x1BD#9 ||| place 11 b ||| place 7 d ||| place 6 1#1 ||| place 0 k]
  | .macSq m a xd yd x y => [place 18 0x3C#6 ||| place 16 m ||| dspCode a xd yd x y]
  | .mpySq m a xd yd x y => [place 18 0x3C#6 ||| place 16 m ||| dspCode a xd yd x y ||| place 0 1#2]
  | .edac m a xd x y => [place 18 0x3C#6 ||| place 16 m ||| place 14 1#1 ||| dspCode a xd 0 x y ||| place 0 2#2]
  | .ed m a xd x y => [place 18 0x3C#6 ||| place 16 m ||| place 14 1#1 ||| dspCode a xd 0 x y ||| place 0 3#2]
  | .lnk k => [place 16 0xFA#8 ||| place 0 k]
  | .ulnk => [0xFA8000]
  | .se d src => [place 16 0xFB#8 ||| place 7 d ||| srcCode src]
  | .ze d src => [place 15 0x1F7#9 ||| place 7 d ||| srcCode src]
  | .disi k => [place 16 0xFC#8 ||| place 0 k]
  | .reset => [0xFE0000]
  | .pwrsav k => [place 1 0x7F2000#23 ||| place 0 k]
  | .popS => [0xFE8000]
  | .pushS => [0xFEA000]

/-- The three bytes of a program word, the lowest address first (log 3). -/
def bytesOfWord (w : ProgWord) : List Byte := [field w 0 8, field w 8 8, field w 16 8]

/-- The bytes of an instruction as program memory holds them. -/
def encodeBytes (i : Instr) : List Byte := (encode i).flatMap bytesOfWord

/-- The bytes of an instruction whose bits are `w`, bit 0 the least significant bit of its first word, a second word
counting on from bit 24; bits at `nbits` and above are 0. -/
def tableBytes (nbits w : Nat) : List Byte :=
  let v := w % 2 ^ nbits
  bytesOfWord (BitVec.ofNat 24 v) ++ bytesOfWord (BitVec.ofNat 24 (v / 2 ^ 24))

/-- The instruction that the decoder reads from an instruction whose bits are `w` (see `tableBytes`). -/
def decodeTableWord (nbits w : Nat) : Option Instr :=
  match decode (tableBytes nbits w) with
  | .ok (i, _) => some i
  | .error _ => none

end Sys2Proof
end

