-- ==== Sys2Proof/Machine/State.lean ====
section
/-! DEFINITION. The state of the machine as plain data, the reasons a step can stop, and the state after reset
(spec/10_state.md R63, spec/70_reset_and_hazards.md R560). INVENTORY.md lists every field with its rule. -/

namespace Sys2Proof.Machine

/-- Data RAM or program memory as (address, byte) pairs: addresses strictly rising, no entry equal to
`Config.unwritten`, which is what an unlisted address reads as (log 4). -/
abbrev Memory := List Host.Cell

/-- The stored bits of SR (R35). OAB, SAB and DA are not stored: they are `OA or OB`, `SA or SB` and `DL not 0`
(R37, R465). -/
structure StatusReg where
  oa : Bool
  ob : Bool
  sa : Bool
  sb : Bool
  dc : Bool
  ipl : BitVec 3
  ra : Bool
  n : Bool
  ov : Bool
  z : Bool
  c : Bool
  deriving DecidableEq, Repr

/-- The stored bits of CORCON (R40); EDT always reads 0 (R41). `ifm` is the bit IF. -/
structure CoreControl where
  us : Bool
  dl : BitVec 3
  sata : Bool
  satb : Bool
  satdw : Bool
  accsat : Bool
  ipl3 : Bool
  psv : Bool
  rnd : Bool
  ifm : Bool
  deriving DecidableEq, Repr

/-- The ten bits of INTCON1 that the spec names (R532). -/
structure IntControl where
  nstdis : Bool
  ovaerr : Bool
  ovberr : Bool
  covaerr : Bool
  covberr : Bool
  ovate : Bool
  ovbte : Bool
  covte : Bool
  sftacerr : Bool
  div0err : Bool
  deriving DecidableEq, Repr

/-- The shadow of the SR bits DC, N, OV, Z, C (R60). -/
structure FlagShadow where
  dc : Bool
  n : Bool
  ov : Bool
  z : Bool
  c : Bool
  deriving DecidableEq, Repr

/-- The progress of an iterative divide (R70): executions made, final quotient and remainder, and the values that the
last execution left in W0 and W1. -/
structure DivProgress where
  k : Nat
  q : Word
  r : Word
  w0 : Word
  w1 : Word
  deriving DecidableEq, Repr

/-- `pendingTraps`, a set of trap names (R69, R510). -/
structure TrapSet where
  arithmetic : Bool
  stack : Bool
  address : Bool
  illegal : Bool
  /-- The traps that the spec does not name: an input, like `irq` (log 44). -/
  others : Vector Bool 4
  deriving DecidableEq, Repr

/-- The input `irq` of a step: the source and its priority, 1 to 7 (R69, R510). -/
structure IrqRequest where
  source : Fin 118
  priority : BitVec 3
  deriving DecidableEq, Repr

/-- What one instruction did that a rule about the instruction right after it looks at. Model field (log 35). -/
structure Recent where
  /-- The W registers it wrote, one bit each (R590, R591). -/
  wrote : BitVec 16
  /-- It wrote SPLIM (R570). -/
  splim : Bool
  /-- It was a DO or wrote DOENDL or DOENDH (R575). -/
  doend : Bool
  deriving DecidableEq, Repr

/-- Nothing of note was done. -/
def Recent.empty : Recent where
  wrote := 0
  splim := false
  doend := false

/-- What the hazard rules know of a program that an exception interrupted: the stack address and the pc of the entry, and
what the instruction before it did. Model field (log 35). -/
structure Suspended where
  frame : Word
  pc : PcAddr
  marks : Recent
  deriving DecidableEq, Repr

/-- What the instruction under way has done so far; empty between steps. Model field (log 35). -/
structure Scratch where
  /-- The instruction's own `pc <- target` (R13). -/
  jump : Option PcAddr
  /-- The W registers from which a source read computed an effective address, one bit each (R590). -/
  srcEa : BitVec 16
  /-- A source operand was read through the PSV window (R585). -/
  psv : Bool
  /-- The words that a taken skip passed over (R420, R585). -/
  skip : Nat
  /-- CORCON.EDT was written 1 while a DO loop is active (R474). -/
  edt : Bool
  /-- It wrote DCOUNT, DOSTART, DOEND or DL (R472). -/
  loopRegs : Bool
  /-- It changed SR.IPL, by a software write or as a RETFIE (R576). -/
  ipl : Bool
  recent : Recent
  deriving DecidableEq, Repr

/-- No instruction is under way. -/
def Scratch.empty : Scratch where
  jump := none
  srcEa := 0
  psv := false
  skip := 0
  edt := false
  loopRegs := false
  ipl := false
  recent := Recent.empty

/-- The state of the machine. -/
structure State where
  /-- W0 to W15 (R20); bit 0 of W15 is always 0 (R24). -/
  w : Vector Word 16
  /-- `Winit`, for W0 to W14 (R26). -/
  wInit : Vector Bool 15
  /-- The program counter: the address of the next instruction (R30). -/
  pc : PcAddr
  sr : StatusReg
  corcon : CoreControl
  /-- SPLIM (R45). -/
  splim : Word
  /-- `splimArmed` (R66). -/
  splimArmed : Bool
  /-- TBLPAG (R46). -/
  tblpag : BitVec 8
  /-- PSVPAG (R47). -/
  psvpag : BitVec 8
  /-- RCOUNT (R48). -/
  rcount : BitVec 14
  /-- DCOUNT (R49). -/
  dcount : Word
  /-- DOSTART (R50). -/
  dostart : PcAddr
  /-- DOEND (R51). -/
  doend : PcAddr
  /-- The DO shadow of DOSTART (R61). -/
  dostartShadow : PcAddr
  /-- The DO shadow of DOEND (R61). -/
  doendShadow : PcAddr
  /-- The DO shadow of DCOUNT (R61). -/
  dcountShadow : Word
  /-- MODCON (R52). -/
  modcon : Word
  /-- XMODSRT (R53). -/
  xmodsrt : Word
  /-- XMODEND (R53). -/
  xmodend : Word
  /-- YMODSRT (R54). -/
  ymodsrt : Word
  /-- YMODEND (R54). -/
  ymodend : Word
  /-- XBREV (R55). -/
  xbrev : Word
  /-- DISICNT (R56). -/
  disicnt : BitVec 14
  /-- ACCA (R57). -/
  acca : AccWord
  /-- ACCB (R57). -/
  accb : AccWord
  /-- The PUSH.S shadows of W0 to W3 (R60). -/
  wShadow : Vector Word 4
  /-- The PUSH.S shadow of DC, N, OV, Z, C (R60). -/
  srShadow : FlagShadow
  /-- `edtPending` (R67): the count 0, 1 or 2. -/
  edtPending : Option (Fin 3)
  /-- `div` (R70). -/
  div : Option DivProgress
  pendingTraps : TrapSet
  intcon1 : IntControl
  /-- Data RAM: the bytes of 0x0800 to RAM_TOP (R105). -/
  data : Memory
  /-- Program memory: the word at address `a` is the bytes listed at `2a`, `2a + 1`, `2a + 2`, lowest first (log 3). -/
  prog : Memory
  /-- Input: the interrupt request presented (R510, log 15). -/
  irq : Option IrqRequest
  /-- Input: a device Reset is requested (R14, log 15). -/
  resetReq : Bool
  /-- The device's parameters (R10, log 8); no step changes them. -/
  dev : Device
  /-- Model field: how many free values have been used (log 41). -/
  free : Nat
  /-- Model field: the instruction under way (log 35). -/
  cur : Scratch
  /-- Model field: the instruction completed last (log 35). -/
  last : Recent
  /-- Model field: what the hazard rules know of interrupted programs (log 35). -/
  held : List Suspended
  deriving DecidableEq, Repr

/-- The faults: the spec itself ends the run there. Each is safe: nothing is claimed of what follows. -/
inductive Fault where
  /-- A word access at an odd address, on a device whose parameter does not make it a trap; raised by every memory
  operation and by TBLRDL (R109, R504, D3). Safe. -/
  | addressError
  /-- An access to data space that is neither a CPU register, nor RAM, nor an enabled PSV window; raised by every
  memory operation (R107, R114, R542, D36). Safe. -/
  | unimplementedData
  /-- A write into the PSV window; raised by every memory write (R111, U4). Safe. -/
  | psvWrite
  /-- An X prefetch inside Y data space; raised by the DSP prefetches (R339, U7). Safe. -/
  | xPrefetchInY
  /-- A Y prefetch outside Y data space; raised by the DSP prefetches (R339, U7). Safe. -/
  | yPrefetchOutsideY
  /-- A table address with bit 23 set; raised by TBLRDL (R440, D32). Safe. -/
  | tableAddress
  /-- A PSV or table read above PROG_TOP; raised by those reads (R120 gives a trap for fetches only; log 37). Safe. -/
  | progDataBeyondTop
  /-- A program address that leaves 23 bits; raised by the advance of the pc and by relative targets (R33, log 30).
  Safe. -/
  | pcOverflow
  deriving DecidableEq, Repr

/-- The refusals: the spec gives the program no meaning there. Each is safe: nothing is claimed. -/
inductive Refusal where
  /-- An instruction whose meaning has not been written; raised by no arm of `exec` once all are. Safe. -/
  | notModelled (mnemonic : String)
  /-- A form that has a row in the opcode table but no rule; raised by those forms (R154, R213, U1). Safe. -/
  | noRule
  /-- PWRSAV (R431, R545, U10). Safe. -/
  | powerSaving
  /-- The fetched words are no instruction; raised by `step` (R154, U1). Safe. -/
  | undecodable (why : Reject)
  /-- A register pair that starts at an odd register, or a dividend pair that is no pair; raised by MOV.D, MUL and the
  32-bit divides (U6, R269, R382). Safe. -/
  | oddPair
  /-- A W register modified twice in ways the spec does not resolve; raised by the two-operand instructions, POP, RETLW
  and the DSP prefetches (R201, R581, U5). Safe. -/
  | conflictingModification
  /-- An operand form that the instruction does not have: TBLRDL with a register-direct source, ED and EDAC without
  both prefetches (R440, R346). Safe. -/
  | reservedOperand
  /-- A DO with DL = 7; raised by DO (R460, U12). Safe. -/
  | doNesting
  /-- A loop length of -2, -1 or 0; raised by DO, and by `step` at the end of a loop that software wrote (R478, R480,
  U11). Safe. -/
  | doLoopLength
  /-- A forbidden last instruction of a DO loop; raised by `step` (R478, R574, U11). Safe. -/
  | doLastInstruction
  /-- One of the last three instructions of a DO loop wrote what it must not: DCOUNT, DOSTART, DOEND, DL or IPL; raised by
  `step` (R472, R478, R576, U11). Safe. -/
  | doHazard
  /-- A REPEAT with an excluded target; raised by `step` at the REPEAT, or at the target where RA is set (R458, R573,
  U13). Safe. -/
  | repeatTarget
  /-- DOENDL or DOENDH read right after a DO or a write to them; raised by memory reads (R575, U11). Safe. -/
  | doendRead
  /-- An indirect read through W15 right after a write of SPLIM; raised by source operands and pops (R570, U14).
  Safe. -/
  | splimThenW15Read
  /-- A software write to PCL or PCH; raised by memory writes (R32, R582, U9). Safe. -/
  | pcWrite
  /-- A software write to CORCON that would change DL or IPL3; raised by memory writes (R41, D42). Safe. -/
  | corconStatus
  /-- A software write that enables modulo or bit-reversed addressing; raised by memory writes (R5, R145). Safe. -/
  | moduloAddressing
  /-- An access beyond RAM, at 0x0800 or above, on a device with an external bus, of which the spec says nothing; raised
  by memory operations (R105, R5). Safe. -/
  | externalBus
  deriving DecidableEq, Repr

/-- The machine right after reset (R63, R560). Where the spec gives no value the field is 0 but for fixed bits
(DESIGN CHOICE, log 5); both memories list nothing (log 4). -/
def State.reset : State where
  w := #v[0, 0, 0, 0, 0, 0, 0, 0, 0, 0, 0, 0, 0, 0, 0, 0x0800]
  wInit := #v[false, false, false, false, false, false, false, false, false, false, false, false, false, false, false]
  pc := 0
  sr := { oa := false, ob := false, sa := false, sb := false, dc := false, ipl := 0, ra := false, n := false,
          ov := false, z := false, c := false }
  corcon := { us := false, dl := 0, sata := false, satb := false, satdw := true, accsat := false, ipl3 := false,
              psv := false, rnd := false, ifm := false }
  splim := 0
  splimArmed := false
  tblpag := 0
  psvpag := 0
  rcount := 0
  dcount := 0
  dostart := 0
  doend := 0
  dostartShadow := 0
  doendShadow := 0
  dcountShadow := 0
  modcon := 0
  xmodsrt := 0
  xmodend := 1
  ymodsrt := 0
  ymodend := 1
  xbrev := 0
  disicnt := 0
  acca := 0
  accb := 0
  wShadow := #v[0, 0, 0, 0]
  srShadow := { dc := false, n := false, ov := false, z := false, c := false }
  edtPending := none
  div := none
  pendingTraps := { arithmetic := false, stack := false, address := false, illegal := false, others := #v[false, false, false, false] }
  intcon1 := { nstdis := false, ovaerr := false, ovberr := false, covaerr := false, covberr := false, ovate := false,
               ovbte := false, covte := false, sftacerr := false, div0err := false }
  data := []
  prog := []
  irq := none
  resetReq := false
  dev := Device.default
  free := 0
  cur := Scratch.empty
  last := Recent.empty
  held := []

end Sys2Proof.Machine
end

