-- ==== Sys2Proof/Machine/Ops.lean ====
section
/-! DEFINITION. The named operations on the state: free values, W registers, CPU registers in data space, data and
program memory, the stack, traps, the entry of an exception and the return from one, and the device Reset
(spec/10_state.md, spec/20_memory.md, spec/60_exceptions.md, spec/70_reset_and_hazards.md). -/

namespace Sys2Proof.Machine

/-! ### Operations -/

/-- Why an operation does not go on. -/
inductive Stop where
  /-- The instruction ends here as the spec says: a `raise` (R511) or a device Reset (R27); what it has done stays. -/
  | ended
  | fault (f : Fault)
  | refused (r : Refusal)
  deriving DecidableEq, Repr

/-- An operation: it reads and updates the state and gives a value or stops. -/
abbrev M := EStateM Stop State

/-- The state as it is now. -/
def getS : M State := fun s => .ok s s

/-- Update the state. -/
def modS (f : State → State) : M Unit := fun s => .ok () (f s)

/-- Stop. -/
def stopWith {α : Type} (e : Stop) : M α := fun s => .error e s

/-- Stop if the condition holds. -/
def stopIf (c : Bool) (e : Stop) : M Unit := fun s => if c then .error e s else .ok () s

/-- What an instruction whose effect is `m` answers (log 10, log 35). -/
def outcome (m : M Unit) (s : State) : Host.Outcome State Fault Refusal :=
  match m.run s with
  | .ok _ t => .next t
  | .error .ended t => .next t
  | .error (.fault f) _ => .fault f
  | .error (.refused r) _ => .refused r

/-- `draw(n)` of R13: a value that the spec leaves unspecified (log 41). -/
def draw (n : Nat) : M (BitVec n) := fun s => .ok (Config.free n s.free) { s with free := s.free + 1 }

/-! ### Bits -/

/-- A bit as a word. -/
def bitWord (b : Bool) : Word := (BitVec.ofBool b).setWidth 16

/-- The address with bit 0 forced to 0 (R30). -/
def evenPc (a : PcAddr) : PcAddr := a &&& 0x7FFFFE

/-- The word with bit 0 forced to 0 (R24, R45, R50). -/
def evenWord (v : Word) : Word := v &&& 0xFFFE

/-- Replace the low byte (R25). -/
def withLowByte (old : Word) (b : Byte) : Word := old.extractLsb' 8 8 ++ b

/-- The byte lane of a word that an address selects: the high byte at an odd address (R108). -/
def lane (a : Word) (v : Word) : Byte := if a.getLsbD 0 then v.extractLsb' 8 8 else v.extractLsb' 0 8

/-- Replace the byte lane that an address selects (R108, R111). -/
def withLane (a : Word) (old : Word) (b : Byte) : Word :=
  if a.getLsbD 0 then b ++ old.extractLsb' 0 8 else withLowByte old b

/-- The bit of one W register in a set of W registers. -/
def regBit (r : RegNum) : BitVec 16 := 1#16 <<< r.toNat

/-- `pc` plus a signed number of address units; leaving 23 bits faults (R33, log 30). -/
def pcPlus (pc : PcAddr) (k : Int) : M PcAddr := fun s =>
  let t := (pc.toNat : Int) + k
  if 0 ≤ t ∧ t.toNat < 2 ^ 23 then .ok (BitVec.ofInt 23 t) s else .error (.fault .pcOverflow) s

/-! ### W registers -/

/-- `W[i]` (R13, R20). -/
def State.readW (s : State) (r : RegNum) : Word := s.w[r.toNat]'r.isLt

/-- Store in `W[i]`: bit 0 of W15 is forced to 0 (R24). -/
def State.setW (s : State) (r : RegNum) (v : Word) : State :=
  { s with w := s.w.set r.toNat (if r = 15 then evenWord v else v) r.isLt }

/-- The register may be used as a pointer: W15, or one that a word write has initialised (R26, R27). -/
def State.initialised (s : State) (r : RegNum) : Bool :=
  if h : r.toNat < 15 then s.wInit[r.toNat] else true

/-- Set `Winit[i]`; W15 has no such bit (R26). -/
def State.setInit (s : State) (r : RegNum) : State :=
  { s with wInit := if h : r.toNat < 15 then s.wInit.set r.toNat true else s.wInit }

/-- Mark that the instruction under way wrote `W[i]` (R590). -/
def State.markWrote (s : State) (r : RegNum) : State :=
  { s with cur := { s.cur with recent := { s.cur.recent with wrote := s.cur.recent.wrote ||| regBit r } } }

/-- Mark that a source read computed an effective address from `W[i]` (R590). -/
def State.markSrcEa (s : State) (r : RegNum) : State :=
  { s with cur := { s.cur with srcEa := s.cur.srcEa ||| regBit r } }

/-- `W[i]` read by an operation. -/
def readW (r : RegNum) : M Word := fun s => .ok (s.readW r) s

/-- The state after `W[i] <- v`, a word write: it initialises the register (R13, R26). -/
def State.putWord (s : State) (r : RegNum) (v : Word) : State := ((s.setW r v).setInit r).markWrote r

/-- The state after `W[i][7:0] <- v`, a byte write: bits 15:8 and `Winit` stay (R25, R26). -/
def State.putByte (s : State) (r : RegNum) (v : Byte) : State := (s.setW r (withLowByte (s.readW r) v)).markWrote r

/-- `W[i] <- v`. -/
def writeWord (r : RegNum) (v : Word) : M Unit := modS fun s => s.putWord r v

/-- `W[i][7:0] <- v`. -/
def writeByte (r : RegNum) (v : Byte) : M Unit := modS fun s => s.putByte r v

/-! ### Traps -/

/-- Whether a trap is pending. -/
def TrapSet.has (p : TrapSet) : Trap → Bool
  | .arithmetic => p.arithmetic
  | .stack => p.stack
  | .address => p.address
  | .illegal => p.illegal
  | .other n => p.others[n]

/-- The set with one trap put in or taken out (R510). -/
def TrapSet.put (p : TrapSet) (t : Trap) (b : Bool) : TrapSet :=
  match t with
  | .arithmetic => { p with arithmetic := b }
  | .stack => { p with stack := b }
  | .address => { p with address := b }
  | .illegal => { p with illegal := b }
  | .other n => { p with others := p.others.set n b }

/-- Add a trap to `pendingTraps` (R510). -/
def State.pend (s : State) (t : Trap) : State := { s with pendingTraps := s.pendingTraps.put t true }

/-- `raise` of a trap: it becomes pending and the instruction ends (R13, R511). -/
def raise {α : Type} (t : Trap) : M α := fun s => .error .ended (s.pend t)

/-- What a word access at an odd address does: the fault of R504 and D3, or AddressError where the device's parameter says
so (R109, log 11). -/
def addressError {α : Type} : M α := fun s =>
  if s.dev.misalignedTraps then .error .ended (s.pend .address) else .error (.fault .addressError) s

/-- The alignment check (R109). -/
def addressErrorIf (c : Bool) : M Unit := if c then addressError else pure ()

/-! ### SR and CORCON as words -/

/-- `DA`: the bits of DL ORed together (R465). -/
def State.da (s : State) : Bool := s.corcon.dl != 0

/-- SR[7:0] (R35). -/
def State.srl (s : State) : Byte :=
  s.sr.ipl ++ BitVec.ofBool s.sr.ra ++ BitVec.ofBool s.sr.n ++ BitVec.ofBool s.sr.ov ++ BitVec.ofBool s.sr.z ++
    BitVec.ofBool s.sr.c

/-- SR[15:8] (R35). -/
def State.srh (s : State) : Byte :=
  BitVec.ofBool s.sr.oa ++ BitVec.ofBool s.sr.ob ++ BitVec.ofBool s.sr.sa ++ BitVec.ofBool s.sr.sb ++
    BitVec.ofBool (s.sr.oa || s.sr.ob) ++ BitVec.ofBool (s.sr.sa || s.sr.sb) ++ BitVec.ofBool s.da ++
    BitVec.ofBool s.sr.dc

/-- SR as read (R35). -/
def State.srWord (s : State) : Word := s.srh ++ s.srl

/-- CORCON as read: bits 15:13 and EDT read 0 (R40, R41). -/
def CoreControl.word (c : CoreControl) : Word :=
  0#3 ++ BitVec.ofBool c.us ++ 0#1 ++ c.dl ++ BitVec.ofBool c.sata ++ BitVec.ofBool c.satb ++ BitVec.ofBool c.satdw ++
    BitVec.ofBool c.accsat ++ BitVec.ofBool c.ipl3 ++ BitVec.ofBool c.psv ++ BitVec.ofBool c.rnd ++ BitVec.ofBool c.ifm

/-- `IPL = CORCON.IPL3 :: SR.IPL[2:0]` (R39). -/
def State.cpuLevel (s : State) : Nat := (BitVec.ofBool s.corcon.ipl3 ++ s.sr.ipl).toNat

/-- SR after a software write of `v` (R37): OA, OB and RA stay; SA, SB and SAB can only be cleared; IPL stays while
NSTDIS is set. -/
def StatusReg.written (r : StatusReg) (nstdis : Bool) (v : Word) : StatusReg :=
  { r with
    sa := r.sa && v.getLsbD 13 && v.getLsbD 10
    sb := r.sb && v.getLsbD 12 && v.getLsbD 10
    dc := v.getLsbD 8
    ipl := if nstdis then r.ipl else v.extractLsb' 5 3
    n := v.getLsbD 3
    ov := v.getLsbD 2
    z := v.getLsbD 1
    c := v.getLsbD 0 }

/-- CORCON after a software write of `v` that leaves DL and IPL3 as they are (R41). -/
def CoreControl.written (c : CoreControl) (v : Word) : CoreControl :=
  { c with
    us := v.getLsbD 12
    sata := v.getLsbD 7
    satb := v.getLsbD 6
    satdw := v.getLsbD 5
    accsat := v.getLsbD 4
    psv := v.getLsbD 2
    rnd := v.getLsbD 1
    ifm := v.getLsbD 0 }

/-! ### CPU registers in data space -/

/-- The first RAM address (R105). -/
def ramStart : Nat := 0x0800

/-- The register whose word holds data address `a`: W2 at 0x0004 on every device (R23), and `SFR_ADDR` for the rest (R62,
D7), in the part of data space that R105 reserves for such registers. -/
def sfrAt (d : Device) (a : Word) : Option Sfr :=
  if a.toNat < ramStart then
    if evenWord a = 0x0004 then some (.w 2) else (d.sfrAddr.find? fun p => p.2 == evenWord a).map Prod.fst
  else none

/-- An accumulator (R57). -/
def State.acc (s : State) : Acc → AccWord
  | .accA => s.acca
  | .accB => s.accb

/-- Store an accumulator. -/
def State.setAcc (s : State) (a : Acc) (v : AccWord) : State :=
  { s with acca := if a = .accA then v else s.acca, accb := if a = .accB then v else s.accb }

/-- The low half of a program address as a register. -/
def pcLow (a : PcAddr) : Word := a.extractLsb' 0 16

/-- The high half of a program address as a register: bits 15:7 read 0. -/
def pcHigh (a : PcAddr) : Word := (a.extractLsb' 16 7).setWidth 16

/-- The program address with its low half replaced; bit 0 stays 0 (R50). -/
def withPcLow (a : PcAddr) (v : Word) : PcAddr := a.extractLsb' 16 7 ++ evenWord v

/-- The program address with its high half replaced (R50). -/
def withPcHigh (a : PcAddr) (v : Word) : PcAddr := v.extractLsb' 0 7 ++ a.extractLsb' 0 16

/-- What a CPU register reads as (R110); none for PCL and PCH, whose value no rule gives (D5, log 20). -/
def State.sfrView (s : State) : Sfr → Option Word
  | .w r => some (s.readW r)
  | .splim => some s.splim
  | .accL a => some ((s.acc a).extractLsb' 0 16)
  | .accH a => some ((s.acc a).extractLsb' 16 16)
  | .accU a => some (((s.acc a).extractLsb' 32 8).signExtend 16)
  | .pcl => none
  | .pch => none
  | .tblpag => some (s.tblpag.setWidth 16)
  | .psvpag => some (s.psvpag.setWidth 16)
  | .rcount => some (s.rcount.setWidth 16)
  | .dcount => some s.dcount
  | .dostartl => some (pcLow s.dostart)
  | .dostarth => some (pcHigh s.dostart)
  | .doendl => some (pcLow s.doend)
  | .doendh => some (pcHigh s.doend)
  | .sr => some s.srWord
  | .corcon => some s.corcon.word
  | .modcon => some s.modcon
  | .xmodsrt => some s.xmodsrt
  | .xmodend => some s.xmodend
  | .ymodsrt => some s.ymodsrt
  | .ymodend => some s.ymodend
  | .xbrev => some s.xbrev
  | .disicnt => some (s.disicnt.setWidth 16)

/-- Read a CPU register. PCL and PCH give a free value with their fixed bits 0 (log 20); DOENDL and DOENDH are refused
right after a DO or a write to them (R575). -/
def readSfr (r : Sfr) : M Word := fun s =>
  match s.sfrView r with
  | some v =>
    if (r == .doendl || r == .doendh) && s.last.doend then .error (.refused .doendRead) s else .ok v s
  | none =>
    match (draw 16).run s with
    | .ok v t => .ok (v &&& (if r == .pcl then 0xFFFE else 0x007F)) t
    | .error e t => .error e t

/-- Update what the rules about the next instruction will look at. -/
def State.mark (s : State) (f : Recent → Recent) : State :=
  { s with cur := { s.cur with recent := f s.cur.recent } }

/-- Mark that the instruction under way wrote a register of the DO loops (R472). -/
def State.markLoop (s : State) : State := { s with cur := { s.cur with loopRegs := true } }

/-- A software write of SR (R37). -/
def writeSr (v : Word) : M Unit := modS fun s =>
  let r := s.sr.written s.intcon1.nstdis v
  { s with sr := r, cur := { s.cur with ipl := s.cur.ipl || r.ipl != s.sr.ipl } }

/-- A software write of CORCON (R41, D42): one that would change DL or IPL3 is refused; a written 1 of EDT is a request
while a DO loop is active and is ignored otherwise (R474). -/
def writeCorcon (v : Word) : M Unit := do
  let s ← getS
  stopIf (v.extractLsb' 8 3 != s.corcon.dl || v.getLsbD 3 != s.corcon.ipl3) (.refused .corconStatus)
  modS fun s => { s with corcon := s.corcon.written v }
  if v.getLsbD 11 && s.da then modS fun s => { s with edtPending := some 0, cur := { s.cur with edt := true } }
  else pure ()

/-- A software write through the data address of `W[i]` (R112): it initialises the register only where the device says
so, and then only as a word write (R26, D6). -/
def writeMappedW (r : RegNum) (v : Word) (wordWrite : Bool) : M Unit := modS fun s =>
  let t := (s.setW r v).markWrote r
  if wordWrite && s.dev.mmapWordWriteInitsW then t.setInit r else t

/-- The write rule of a CPU register (R111): R24, R32, R37, R41, R45 to R56, R58; `wordWrite` is false when only one byte
lane was written and the other comes from the register as it is. -/
def writeSfr (r : Sfr) (v : Word) (wordWrite : Bool) : M Unit :=
  match r with
  | .w n => writeMappedW n v wordWrite
  | .splim => modS fun s =>
      { s with splim := evenWord v, splimArmed := s.splimArmed || wordWrite }.mark fun m => { m with splim := true }
  | .accL a => modS fun s => s.setAcc a ((s.acc a).extractLsb' 16 24 ++ v)
  | .accH a => modS fun s => s.setAcc a ((s.acc a).extractLsb' 32 8 ++ v ++ (s.acc a).extractLsb' 0 16)
  | .accU a => modS fun s => s.setAcc a (v.extractLsb' 0 8 ++ (s.acc a).extractLsb' 0 32)
  | .pcl => stopWith (.refused .pcWrite)
  | .pch => stopWith (.refused .pcWrite)
  | .tblpag => modS fun s => { s with tblpag := v.extractLsb' 0 8 }
  | .psvpag => modS fun s => { s with psvpag := v.extractLsb' 0 8 }
  | .rcount => modS fun s => { s with rcount := v.extractLsb' 0 14 }
  | .dcount => modS fun s => { s with dcount := v }.markLoop
  | .dostartl => modS fun s => { s with dostart := withPcLow s.dostart v }.markLoop
  | .dostarth => modS fun s => { s with dostart := withPcHigh s.dostart v }.markLoop
  | .doendl => modS fun s => { s with doend := withPcLow s.doend v }.markLoop.mark fun m => { m with doend := true }
  | .doendh => modS fun s => { s with doend := withPcHigh s.doend v }.markLoop.mark fun m => { m with doend := true }
  | .sr => writeSr v
  | .corcon => writeCorcon v
  | .modcon => do
      stopIf (v.getLsbD 15 || v.getLsbD 14) (.refused .moduloAddressing)
      modS fun s => { s with modcon := v &&& 0xCFFF }
  | .xmodsrt => modS fun s => { s with xmodsrt := evenWord v }
  | .xmodend => modS fun s => { s with xmodend := v ||| 1 }
  | .ymodsrt => modS fun s => { s with ymodsrt := evenWord v }
  | .ymodend => modS fun s => { s with ymodend := v ||| 1 }
  | .xbrev => do
      stopIf (v.getLsbD 15) (.refused .moduloAddressing)
      modS fun s => { s with xbrev := v }
  | .disicnt => modS fun s => { s with disicnt := v.extractLsb' 0 14 }

/-! ### Memories in canonical form -/

/-- The byte at an address. -/
def Memory.read : Memory → Nat → Byte
  | [], _ => Config.unwritten
  | (k, v) :: rest, a => if k = a then v else Memory.read rest a

/-- Put an entry in front, unless it says what an unlisted address says. -/
def Memory.cons (a : Nat) (v : Byte) (m : Memory) : Memory := if v = Config.unwritten then m else (a, v) :: m

/-- Store a byte, keeping the canonical form. -/
def Memory.write : Memory → Nat → Byte → Memory
  | [], a, v => Memory.cons a v []
  | (k, x) :: rest, a, v =>
    if a < k then Memory.cons a v ((k, x) :: rest)
    else if a = k then Memory.cons a v rest
    else (k, x) :: Memory.write rest a v

/-- Every entry lies above `a`, the addresses rise strictly, and no entry says what an unlisted address says. -/
def Memory.wfFrom : Nat → Memory → Bool
  | _, [] => true
  | a, (k, v) :: rest => decide (a ≤ k) && v != Config.unwritten && Memory.wfFrom (k + 1) rest

/-- The canonical form. -/
def Memory.wf (m : Memory) : Bool := Memory.wfFrom 0 m

/-- Every entry's address lies in `lo ≤ a ≤ hi`. -/
def Memory.within (lo hi : Nat) (m : Memory) : Bool := m.all fun c => decide (lo ≤ c.1) && decide (c.1 ≤ hi)

/-! ### Data space and program space -/

/-- The `n` bytes from `a` on are implemented RAM (R105, R107). -/
def State.inRam (s : State) (a : Word) (n : Nat) : Bool :=
  decide (ramStart ≤ a.toNat) && decide (a.toNat + n ≤ s.dev.ramTop.toNat + 1)

/-- The word of RAM at an even address, little-endian (R108). -/
def State.ramWord (s : State) (a : Word) : Word := s.data.read (a.toNat + 1) ++ s.data.read a.toNat

/-- Store a byte or a word of RAM, little-endian (R108, R111, R113). -/
def State.store (s : State) (byte : Bool) (a v : Word) : State :=
  { s with
    data :=
      if byte then s.data.write a.toNat (v.extractLsb' 0 8)
      else (s.data.write a.toNat (v.extractLsb' 0 8)).write (a.toNat + 1) (v.extractLsb' 8 8) }

/-- The byte of RAM at an address, or the word at an even address (R108). -/
def State.load (s : State) (byte : Bool) (a : Word) : Word :=
  if byte then (s.data.read a.toNat).setWidth 16 else s.ramWord a

/-- `ProgRead(a)`: the program word at an even address (R120, log 3). -/
def State.progWord (s : State) (a : PcAddr) : ProgWord :=
  wordOfBytes (s.prog.read (2 * a.toNat)) (s.prog.read (2 * a.toNat + 1)) (s.prog.read (2 * a.toNat + 2))

/-- The program address is implemented (R10, R120). -/
def State.progImplemented (s : State) (a : PcAddr) : Bool := decide (a.toNat ≤ s.dev.progTop.toNat)

/-- The program address that the PSV window shows at a data address (R121). -/
def State.psvAddress (s : State) (a : Word) : PcAddr := s.psvpag ++ a.extractLsb' 1 14 ++ 0#1

/-- The data word of the program word at `a`: its low 16 bits (R121, R440). -/
def progData (a : PcAddr) : M Word := do
  let s ← getS
  stopIf (!s.progImplemented a) (.fault .progDataBeyondTop)
  pure ((s.progWord a).extractLsb' 0 16)

/-- The low byte or the whole of a word, as a value of the operand size. -/
def sized (byte : Bool) (v : Word) : Word := if byte then (v.extractLsb' 0 8).setWidth 16 else v

/-- The byte lane or the whole of a word read at an address. -/
def laneOrWord (byte : Bool) (a v : Word) : Word := if byte then (lane a v).setWidth 16 else v

/-- An access that reaches no register, no PSV window and no RAM: the fault of R107 and R114, or a refusal where RAM
could sit on an external bus that the spec does not describe (R105, R5, log 8). Such RAM only extends the data RAM, so
below 0x0800 it is the fault on every device. -/
def noMemory (d : Device) (a : Word) : Stop :=
  if d.externalBus && decide (ramStart ≤ a.toNat) then .refused .externalBus else .fault .unimplementedData

/-- `MemRead(addr, n)`, n = 1 for byte, else 2 (R110). A byte comes in bits 7:0. -/
def memRead (byte : Bool) (a : Word) : M Word := do
  addressErrorIf (!byte && a.getLsbD 0)
  let s ← getS
  match sfrAt s.dev a with
  | some r => do
    let v ← readSfr r
    pure (laneOrWord byte a v)
  | none =>
    if s.corcon.psv && a.getLsbD 15 then do
      let v ← progData (s.psvAddress a)
      modS fun s => { s with cur := { s.cur with psv := true } }
      pure (laneOrWord byte a v)
    else do
      stopIf (!s.inRam a (if byte then 1 else 2)) (noMemory s.dev a)
      pure (s.load byte a)

/-- `MemWrite(addr, n, v)`, n = 1 for byte, else 2 (R111). A byte write of a CPU register changes one lane of it. -/
def memWrite (byte : Bool) (a v : Word) : M Unit := do
  addressErrorIf (!byte && a.getLsbD 0)
  let s ← getS
  match sfrAt s.dev a with
  | some r =>
    if byte then writeSfr r (withLane a ((s.sfrView r).getD 0) (v.extractLsb' 0 8)) false else writeSfr r v true
  | none => do
    stopIf (s.corcon.psv && a.getLsbD 15) (.fault .psvWrite)
    stopIf (!s.inRam a (if byte then 1 else 2)) (noMemory s.dev a)
    modS fun s => s.store byte a v

/-! ### The device Reset -/

/-- The RAM of the device after a Reset that uses the `k`-th batch of RAM values (R63, D30, log 7). -/
def ramAfterReset (d : Device) (k : Nat) : Memory :=
  (List.range' ramStart (d.ramTop.toNat + 1 - ramStart)).filterMap fun a =>
    if Config.ramAfterReset k a = Config.unwritten then none else some (a, Config.ramAfterReset k a)

/-- A free bit. -/
def freeBit (k : Nat) : Bool := (Config.free 1 k).getLsbD 0

/-- A device Reset while the machine runs (R432, R560, R561): what the spec calls unknown after a reset takes free
values, program memory and the device stay, and the pc is 0 (log 7). -/
def deviceReset (s : State) : State :=
  let k := s.free
  { State.reset with
    sr := { State.reset.sr with
            ipl := if s.dev.resetSrLow6Table then 0#2 ++ Config.free 1 (k + 20) else 0
            ra := s.dev.resetSrLow6Table && freeBit (k + 21)
            n := freeBit k
            ov := freeBit (k + 1)
            z := freeBit (k + 2)
            c := freeBit (k + 3) }
    rcount := Config.free 14 (k + 4)
    dcount := Config.free 16 (k + 5)
    dostart := evenPc (Config.free 23 (k + 6))
    doend := evenPc (Config.free 23 (k + 7))
    xmodsrt := evenWord (Config.free 16 (k + 8))
    xmodend := Config.free 16 (k + 9) ||| 1
    ymodsrt := evenWord (Config.free 16 (k + 10))
    ymodend := Config.free 16 (k + 11) ||| 1
    wShadow := #v[Config.free 16 (k + 12), Config.free 16 (k + 13), Config.free 16 (k + 14), Config.free 16 (k + 15)]
    srShadow := { dc := freeBit (k + 16), n := freeBit (k + 17), ov := freeBit (k + 18), z := freeBit (k + 19),
                  c := freeBit (k + 22) }
    dostartShadow := evenPc (Config.free 23 (k + 23))
    doendShadow := evenPc (Config.free 23 (k + 24))
    dcountShadow := Config.free 16 (k + 25)
    data := ramAfterReset s.dev k
    prog := s.prog
    dev := s.dev
    free := k + 26
    cur := { Scratch.empty with jump := some 0 } }

/-- `Ptr(n)`: the register as an address pointer; an uninitialised one resets the device (R27, R200, log 10). -/
def ptr (r : RegNum) : M Word := fun s =>
  if s.initialised r then .ok (s.readW r) s else .error .ended (deviceReset s)

/-! ### The stack -/

/-- The check of `EA_W15` fails: beyond SPLIM while the check is armed, below 0x0800, or computed with a carry out of
bit 15 while the check is armed (R506, R507, R508). -/
def State.stackBad (s : State) (ea : Word) (wraps : Bool) : Bool :=
  (s.splimArmed && (wraps || decide (s.splim.toNat < ea.toNat))) || decide (ea.toNat < ramStart)

/-- `EA_W15(ea)`: StackError (R503, R506 to R508). Where the device performs the faulting access the instruction goes
on with the trap pending (R202, D10, log 19). -/
def checkStack (ea : Word) (wraps : Bool) : M Unit := fun s =>
  if s.stackBad ea wraps then
    (if s.dev.faultingAccessPerformed then .ok () (s.pend .stack) else .error .ended (s.pend .stack))
  else .ok () s

/-- The stack check where the effective address was formed from W15 (R200). -/
def checkEa (stack : Bool) (ea : Word) (wraps : Bool) : M Unit := if stack then checkStack ea wraps else pure ()

/-- The address is read as a source through `W[i]`: mark it for the stall rule, and refuse a read through W15 right
after a write of SPLIM (R570, R590). -/
def sourceThrough (r : RegNum) : M Unit := do
  let s ← getS
  stopIf (r == 15 && s.last.splim) (.refused .splimThenW15Read)
  modS fun s => s.markSrcEa r

/-- `Push(v)` (R130). DESIGN CHOICE (log 46): where W15 holds its own data address the 2 is added to the word written, as
the pseudocode of R130 has it, and not dominated by it. -/
def push (v : Word) : M Unit := do
  let ea ← readW 15
  checkStack ea false
  memWrite false ea v
  let sp ← readW 15
  writeWord 15 (sp + 2)

/-- `Pop()` (R131). -/
def pop : M Word := do
  let sp ← readW 15
  sourceThrough 15
  writeWord 15 (sp - 2)
  let ea ← readW 15
  checkStack ea false
  memRead false ea

/-! ### Where control goes -/

/-- The instruction's own `pc <- target`; bit 0 of the PC is always 0 (R13, R30). -/
def jumpTo (a : PcAddr) : M Unit := modS fun s => { s with cur := { s.cur with jump := some (evenPc a) } }

/-- `PushPC_call(ra)` (R132, R400). -/
def pushPcCall (ra : PcAddr) : M Unit := do
  push (pcLow ra)
  push (pcHigh ra)

/-- The return address from its two stacked words: `hi[6:0] :: lo[15:1] :: 0` (R405). -/
def returnAddress (hi lo : Word) : PcAddr := hi.extractLsb' 0 7 ++ evenWord lo

/-- The stack part of RETURN and RETLW (R405, R406). -/
def returnFromCall : M Unit := do
  let hi ← pop
  let lo ← pop
  jumpTo (returnAddress hi lo)

/-! ### Taking an exception and returning from one -/

/-- `TRAP_LEVEL(t)` less 8 (R510). -/
def trapLevel (d : Device) : Trap → BitVec 3
  | .arithmetic => d.levelArithmetic
  | .stack => d.levelStack
  | .address => d.levelAddress
  | .illegal => d.levelIllegal
  | .other n => d.levelOther[n]

/-- `VECTOR(e)`, an even program address (R520, log 13). -/
def vectorOf (d : Device) (e : Exc) : PcAddr := evenPc ((d.vectors.lookup e).getD (Config.vector e))

/-- A push of the exception entry: a stack violation is noted in `pendingTraps` and the push is made (R512, D26); where
W15 holds its own data address: as `push` (log 46). -/
def pushInEntry (v : Word) : M Unit := do
  let ea ← readW 15
  modS fun s => if s.stackBad ea false then s.pend .stack else s
  memWrite false ea v
  let sp ← readW 15
  writeWord 15 (sp + 2)

/-- The second word stacked by an exception: `SR[7:0] :: IPL3 :: ra[22:16]` (R132, D11). -/
def State.stackedStatus (s : State) (ra : PcAddr) : Word :=
  s.srl ++ (BitVec.ofBool s.corcon.ipl3 ++ ra.extractLsb' 16 7)

/-- The IPL update of an exception (R513, R531) and the request it consumes (R512, log 15). -/
def State.enterLevel (s : State) : Exc → State
  | .trap t =>
    { s with corcon := { s.corcon with ipl3 := true }, sr := { s.sr with ipl := trapLevel s.dev t },
             pendingTraps := s.pendingTraps.put t false }
  | .irq _ =>
    { s with corcon := { s.corcon with ipl3 := false },
             sr := { s.sr with ipl := if s.intcon1.nstdis then 7 else
                                        match s.irq with
                                        | some q => q.priority
                                        | none => s.sr.ipl },
             irq := none }

/-- The suspended program of this stack frame and pc is another one. -/
def Suspended.differs (frame : Word) (pc : PcAddr) (h : Suspended) : Bool := h.frame != frame || h.pc != pc

/-- What is held of the interrupted programs after an exception is entered: the marks of the one interrupted now, which
R570 and R575 look at when it goes on (log 35). The entry takes the place of a stall (R592). -/
def State.suspend (s : State) : List Suspended :=
  let rest := s.held.filter (Suspended.differs (s.readW 15) s.pc)
  if s.last.splim || s.last.doend then ⟨s.readW 15, s.pc, { s.last with wrote := 0 }⟩ :: rest else rest

/-- The entry of an accepted exception (R512, R513, R514): the pc and SRL with IPL3 are stacked, RA is cleared, the level
is raised, and the pc goes to the handler, whose first instruction follows the last one executed (log 35). -/
def enterException (e : Exc) : M Unit := do
  let s ← getS
  pushInEntry (pcLow s.pc)
  let t ← getS
  pushInEntry (t.stackedStatus s.pc)
  modS fun s => { s with sr := { s.sr with ra := false } }.enterLevel e
  modS fun u =>
    { u with pc := vectorOf u.dev e, cur := Scratch.empty, last := { s.last with wrote := 0 }, held := s.suspend }

/-- SRL and IPL3 as an exception stacked them (R407, D11); that IPL changed is noted, as in `writeSr` (R576). -/
def State.restoreStatus (s : State) (hi : Word) : State :=
  { s with
    sr := { s.sr with
            ipl := hi.extractLsb' 13 3
            ra := hi.getLsbD 12
            n := hi.getLsbD 11
            ov := hi.getLsbD 10
            z := hi.getLsbD 9
            c := hi.getLsbD 8 }
    corcon := { s.corcon with ipl3 := hi.getLsbD 7 }
    cur := { s.cur with ipl := s.cur.ipl || hi.extractLsb' 13 3 != s.sr.ipl } }

/-- The return from an exception (R407, R525), the inverse of `enterException`. -/
def returnFromException : M Unit := do
  let hi ← pop
  let lo ← pop
  modS fun s => s.restoreStatus hi
  jumpTo (returnAddress hi lo)

end Sys2Proof.Machine
end

