-- ==== Sys2Proof/Machine/Flags.lean ====
section
/-! DEFINITION. The MCU ALU: results and flags of additions, subtractions and shifts, and how an instruction writes the
flags (spec/41_mcu_alu.md R250 to R267, spec/40_mcu_move_stack.md R230, R231). -/

namespace Sys2Proof.Machine

/-- A result of the MCU ALU and the flags that go with it. -/
structure AluResult (n : Nat) where
  value : BitVec n
  c : Bool
  dc : Bool
  n : Bool
  ov : Bool
  z : Bool
  deriving DecidableEq, Repr

/-- The result and flags of `AddFlags(a, b, cin, n)` (R250): C is the carry out of bit `n - 1`, DC the one out of the
lower half, N the sign, OV a sign change that the operands do not explain, Z an all-zero result. -/
def addFlags {n : Nat} (a b : BitVec n) (cin : Bool) : AluResult n :=
  let s := a.toNat + b.toNat + cin.toNat
  let r := BitVec.ofNat n s
  let h := 2 ^ (n / 2)
  { value := r
    c := decide (2 ^ n ≤ s)
    dc := decide (h ≤ a.toNat % h + b.toNat % h + cin.toNat)
    n := r.msb
    ov := a.msb == b.msb && r.msb != a.msb
    z := r == 0 }

/-- `a - b` as `AddFlags(a, NOT b, 1, n)` (R252). No instruction of the spec subtracts in the MCU ALU. -/
def subFlags {n : Nat} (a b : BitVec n) : AluResult n := addFlags a (~~~b) true

/-- C, DC, N, OV, Z as an addition leaves them (R255). -/
def StatusReg.withAdd {n : Nat} (r : StatusReg) (x : AluResult n) : StatusReg :=
  { r with c := x.c, dc := x.dc, n := x.n, ov := x.ov, z := x.z }

/-- C, N, Z as a one-bit shift, SE or ZE leaves them (R230, R231, R265 to R267). -/
def StatusReg.withCNZ (r : StatusReg) (c n z : Bool) : StatusReg := { r with c := c, n := n, z := z }

/-- N, Z as a multi-bit shift leaves them (R265 to R267). -/
def StatusReg.withNZ (r : StatusReg) (n z : Bool) : StatusReg := { r with n := n, z := z }

/-- Update SR. -/
def modSr (f : StatusReg → StatusReg) : M Unit := modS fun s => { s with sr := f s.sr }

/-- The sum of two values of the operand size, with the flags set (R250, R251). The low byte alone counts in byte
mode. -/
def aluAdd (byte : Bool) (a b : Word) : M Word :=
  if byte then do
    let x := addFlags (a.extractLsb' 0 8) (b.extractLsb' 0 8) false
    modSr fun r => r.withAdd x
    pure (x.value.setWidth 16)
  else do
    let x := addFlags a b false
    modSr fun r => r.withAdd x
    pure x.value

/-- The three shifts (R264 to R267). -/
inductive ShiftKind where
  | sl
  | lsr
  | asr
  deriving DecidableEq, Repr

/-- A shift by one bit and the bit it moves out (R265, R266, R267). -/
def shiftOne {n : Nat} (k : ShiftKind) (a : BitVec n) : BitVec n × Bool :=
  match k with
  | .sl => (a <<< 1, a.msb)
  | .lsr => (a >>> 1, a.getLsbD 0)
  | .asr => (a.sshiftRight 1, a.getLsbD 0)

/-- A one-bit shift of a value of the operand size, with C, N, Z set (R265 to R267). -/
def aluShiftOne (k : ShiftKind) (byte : Bool) (a : Word) : M Word :=
  if byte then do
    let x := shiftOne k (a.extractLsb' 0 8)
    modSr fun r => r.withCNZ x.2 x.1.msb (x.1 == 0)
    pure (x.1.setWidth 16)
  else do
    let x := shiftOne k a
    modSr fun r => r.withCNZ x.2 x.1.msb (x.1 == 0)
    pure x.1

/-- A shift of a word by `k` bits; 16 or more fill with zeros, or with the sign for ASR (R265 to R267). -/
def shiftMany (kind : ShiftKind) (a : Word) (k : Nat) : Word :=
  match kind with
  | .sl => if 15 < k then 0 else a <<< k
  | .lsr => if 15 < k then 0 else a >>> k
  | .asr => if 15 < k then (if a.msb then 0xFFFF else 0) else a.sshiftRight k

/-- A multi-bit shift with N, Z set (R265 to R267). -/
def aluShiftMany (kind : ShiftKind) (a : Word) (k : Nat) : M Word := do
  let r := shiftMany kind a k
  modSr fun q => q.withNZ r.msb (r == 0)
  pure r

end Sys2Proof.Machine
end

