-- ==== Sys2Proof/Machine/Operands.lean ====
section
/-! DEFINITION. The operand forms: effective addresses with their pointer modifications, reading a source operand,
writing a destination operand, file registers, register pairs (spec/40_mcu_move_stack.md R200 to R203, R214;
spec/30_encoding.md R157). The forms `[Wn--]`, `[++Wn]` and `[Wn+Wb]`, which R157 names without a rule, work like
the forms R200 gives (PRESUMED, log 16). -/

namespace Sys2Proof

/-- The form modifies the register it names. -/
def Operand.modifies (o : Operand) : Bool :=
  match o.mode with
  | .postDec | .postInc | .preDec | .preInc => true
  | .direct | .indirect | .offset => false

/-- The operand is register direct. -/
def Operand.isDirect (o : Operand) : Bool := o.mode == .direct

/-- The effective address of an indirect operand, from the pointer's value, the value of `Wb` and the step (R200). -/
def Mode.ea (m : Mode) (base off step : Word) : Word :=
  match m with
  | .direct | .indirect | .postDec | .postInc => base
  | .preDec => base - step
  | .preInc => base + step
  | .offset => base + off

/-- The pointer's value after the operand, where the form changes it (R200). -/
def Mode.newPointer (m : Mode) (base step : Word) : Option Word :=
  match m with
  | .direct | .indirect | .offset => none
  | .postDec | .preDec => some (base - step)
  | .postInc | .preInc => some (base + step)

/-- The computation of the effective address carries out of bit 15 (R508). -/
def Mode.wraps (m : Mode) (base off step : Word) : Bool :=
  match m with
  | .direct | .indirect | .postDec | .postInc | .preDec => false
  | .preInc => decide (2 ^ 16 ≤ base.toNat + step.toNat)
  | .offset => decide (2 ^ 16 ≤ base.toNat + off.toNat)

/-- The pointer is modified before the effective address is checked: the forms `[--Wn]` and `[++Wn]` (R131, R200). -/
def Mode.isPre (m : Mode) : Bool :=
  match m with
  | .preDec | .preInc => true
  | .direct | .indirect | .postDec | .postInc | .offset => false

/-- W15 takes part in the effective address: as the pointer or, in `[Wn+Wb]`, as `Wb` (R200, R503). -/
def Operand.usesStack (o : Operand) (b : RegNum) : Bool := o.reg == 15 || (o.mode == .offset && b == 15)

end Sys2Proof

namespace Sys2Proof.Machine

/-- The state with a pointer modified, where the form modifies it (R200). -/
def State.movePointer (s : State) (r : RegNum) (p : Option Word) : State :=
  match p with
  | some v => s.putWord r v
  | none => s

/-- Store the modified pointer, where the form modifies it. -/
def modifyPointer (r : RegNum) (p : Option Word) : M Unit := modS fun s => s.movePointer r p

/-- The effective address of an indirect operand, with the pointer modification and the stack check (R200). `b` is the
register of `[Wn+Wb]`. DESIGN CHOICE (log 48): the pointer keeps its new value where the access that follows is an
AddressError. -/
def operandAddress (b : RegNum) (step : Word) (o : Operand) : M Word := do
  let base ← ptr o.reg
  let off ← readW b
  if o.mode.isPre then do
    modifyPointer o.reg (o.mode.newPointer base step)
    let ea ← readW o.reg
    checkEa (o.usesStack b) ea (o.mode.wraps base off step)
    pure ea
  else do
    let ea := o.mode.ea base off step
    checkEa (o.usesStack b) ea (o.mode.wraps base off step)
    modifyPointer o.reg (o.mode.newPointer base step)
    pure ea

/-- The step of a pointer modification: the operand size (R200). -/
def stepOf (byte : Bool) : Word := if byte then 1 else 2

/-- The address of a source operand (R200, R570, R590). -/
def sourceAddress (b : RegNum) (step : Word) (o : Operand) : M Word := do
  sourceThrough o.reg
  if o.mode = .offset then sourceThrough b else pure ()
  operandAddress b step o

/-- `ReadOperand(op, size)` (R200). A byte comes in bits 7:0. DESIGN CHOICE (log 53): a pointer that the form modifies is
modified before the read, so a read of the data address of that very register gives its new value. -/
def readOperand (b : RegNum) (byte : Bool) (o : Operand) : M Word :=
  if o.isDirect then do
    let v ← readW o.reg
    pure (sized byte v)
  else do
    let ea ← sourceAddress b (stepOf byte) o
    memRead byte ea

/-- Write a W register as the operand size says (R25, R200). -/
def writeReg (byte : Bool) (r : RegNum) (v : Word) : M Unit :=
  if byte then writeByte r (v.extractLsb' 0 8) else writeWord r v

/-- `WriteOperand(op, size, v)` (R200): the memory write comes after the pointer modification (R112). -/
def writeOperand (b : RegNum) (byte : Bool) (o : Operand) (v : Word) : M Unit :=
  if o.isDirect then writeReg byte o.reg v
  else do
    let ea ← operandAddress b (stepOf byte) o
    memWrite byte ea v

/-- A source and a destination that modify one register twice, or modify it and have it as the direct destination: not
resolved by the spec (R201, U5, log 17). -/
def conflicts (src dst : Operand) : Bool := src.modifies && (dst.modifies || dst.isDirect) && src.reg == dst.reg

/-- Refuse an instruction whose operands conflict (R201, U5). -/
def refuseConflict (c : Bool) : M Unit := stopIf c (.refused .conflictingModification)

/-- Refuse a register that cannot start a register pair (U6). -/
def refuseOdd (r : RegNum) : M Unit := stopIf (r.getLsbD 0) (.refused .oddPair)

/-- The address of a file register (R200). -/
def fileAddress (f : BitVec 13) : Word := f.setWidth 16

/-- The destination of a file register instruction: the file register, or WREG (R21, R256). -/
def writeFileOrWreg (byte toFile : Bool) (f : BitVec 13) (v : Word) : M Unit :=
  if toFile then memWrite byte (fileAddress f) v else writeReg byte 0 v

/-- A two-operand instruction: read the source, compute, write the destination (R201). -/
def unaryOp (byte : Bool) (dst src : Operand) (f : Word → M Word) : M Unit := do
  refuseConflict (conflicts src dst)
  let v ← readOperand 0 byte src
  let r ← f v
  writeOperand 0 byte dst r

/-- A file register instruction with one operand: read the file register, compute, write it or WREG (R256, R265). -/
def fileOp (byte toFile : Bool) (f : BitVec 13) (g : Word → M Word) : M Unit := do
  let v ← memRead byte (fileAddress f)
  let r ← g v
  writeFileOrWreg byte toFile f r

/-- The source and a direct destination register conflict (R201, U5). -/
def conflictsReg (src : Operand) (d : RegNum) : Bool := src.modifies && src.reg == d

end Sys2Proof.Machine
end

