-- ==== Sys2Proof/Machine/Alu.lean ====
section
/-! DEFINITION. ADD and the bit instructions (spec/41_mcu_alu.md R255 to R262), with the forms that have a row in the
opcode table and no rule (R154). -/

namespace Sys2Proof.Machine

/-- `ADD{.B} Wb, Ws, Wd` (R255). -/
def execAddReg (b : RegNum) (byte : Bool) (dst src : Operand) (s : State) : Host.Outcome State Fault Refusal :=
  outcome (do
    refuseConflict (conflicts src dst)
    let a ← readW b
    let m ← readOperand 0 byte src
    let r ← aluAdd byte a m
    writeOperand 0 byte dst r) s

/-- `ADD{.B} Wb, #lit5, Wd`: no rule (R154, U1). -/
def execAddLit5 (_b : RegNum) (_byte : Bool) (_dst : Operand) (_lit : BitVec 5) (_s : State) :
    Host.Outcome State Fault Refusal :=
  .refused .noRule

/-- `ADD{.B} #lit10, Wn`: no rule (R154, U1). -/
def execAddLit10 (_byte : Bool) (_lit : BitVec 10) (_d : RegNum) (_s : State) : Host.Outcome State Fault Refusal :=
  .refused .noRule

/-- `ADD{.B} f {,WREG}` (R256). -/
def execAddFile (byte toFile : Bool) (f : BitVec 13) (s : State) : Host.Outcome State Fault Refusal :=
  outcome (fileOp byte toFile f fun m => do
    let a ← readW 0
    aluAdd byte m a) s

/-- `BSET{.B} Ws, #bit4`: no rule (R154, U1, R260). -/
def execBsetInd (_bit : BitVec 4) (_byte : Bool) (_src : Operand) (_s : State) : Host.Outcome State Fault Refusal :=
  .refused .noRule

/-- `BCLR{.B} Ws, #bit4`: no rule (R154, U1). -/
def execBclrInd (_bit : BitVec 4) (_byte : Bool) (_src : Operand) (_s : State) : Host.Outcome State Fault Refusal :=
  .refused .noRule

/-- `BTSC Ws, #bit4`: no rule (R154, U1). -/
def execBtscInd (_bit : BitVec 4) (_src : Operand) (_s : State) : Host.Outcome State Fault Refusal :=
  .refused .noRule

/-- The mask of one bit of a word. -/
def bitMask (bit : BitVec 4) : Word := 1#16 <<< bit.toNat

/-- `BSET f, #bit`, a word read-modify-write (R260, log 21). -/
def execBsetFile (bit : BitVec 4) (f : BitVec 13) (s : State) : Host.Outcome State Fault Refusal :=
  outcome (do
    let v ← memRead false (fileAddress f)
    memWrite false (fileAddress f) (v ||| bitMask bit)) s

/-- `BCLR f, #bit`, a word read-modify-write (R261, log 21). -/
def execBclrFile (bit : BitVec 4) (f : BitVec 13) (s : State) : Host.Outcome State Fault Refusal :=
  outcome (do
    let v ← memRead false (fileAddress f)
    memWrite false (fileAddress f) (v &&& ~~~(bitMask bit))) s

/-- Skip the next instruction, both its words if it has two (R420). DESIGN CHOICE (log 43): a skipped word that is no
instruction, or that lies above PROG_TOP, counts as the top byte says that program memory holds there (R151), one word
or two. -/
def skipNext : M Unit := do
  let s ← getS
  let next ← pcPlus s.pc 2
  let n := firstWordLength (s.progWord next)
  let t ← pcPlus s.pc (2 + 2 * n)
  jumpTo t
  modS fun s => { s with cur := { s.cur with skip := n } }

/-- `BTSC f, #bit` (R262). -/
def execBtscFile (bit : BitVec 4) (f : BitVec 13) (s : State) : Host.Outcome State Fault Refusal :=
  outcome (do
    let v ← memRead false (fileAddress f)
    if v.getLsbD bit.toNat then pure () else skipNext) s

end Sys2Proof.Machine
end

