-- ==== Sys2Proof/Machine/Divide.lean ====
section
/-! DEFINITION. The iterative divides (spec/43_divide.md R380 to R387). -/

namespace Sys2Proof.Machine

/-- The quotient and remainder as registers, or none where the spec says that they may be any value (U8). -/
abbrev Quotient := Option (Word × Word)

/-- `Quotient` of the signed divides: truncated toward zero, the remainder with the sign of the dividend (R381,
R382). -/
def signedQuotient (n d : Int) : Quotient :=
  if -32768 ≤ n.tdiv d ∧ n.tdiv d ≤ 32767 then some (BitVec.ofInt 16 (n.tdiv d), BitVec.ofInt 16 (n.tmod d)) else none

/-- `Quotient` of the unsigned divides (R383, R384). -/
def unsignedQuotient (n d : Nat) : Quotient :=
  if n / d ≤ 0xFFFF then some (BitVec.ofNat 16 (n / d), BitVec.ofNat 16 (n % d)) else none

/-- `Quotient` of DIVF: it exists when the dividend is smaller in magnitude than the divisor (R385). -/
def fractionalQuotient (m d : Int) : Quotient :=
  if m.natAbs < d.natAbs then some (BitVec.ofInt 16 ((m * 2 ^ 15).tdiv d), BitVec.ofInt 16 ((m * 2 ^ 15).tmod d))
  else none

/-- N, OV, Z, C take free values (R386, U8). -/
def drawFlags : M Unit := do
  let x ← draw 4
  modSr fun r => { r with n := x.getLsbD 3, ov := x.getLsbD 2, z := x.getLsbD 1, c := x.getLsbD 0 }

/-- W0 and W1 take free values (R386, U8), by word writes, which initialise them; after a divide by zero too, where that is
a DESIGN CHOICE (log 50). -/
def drawPair : M Unit := do
  let a ← draw 16
  let b ← draw 16
  writeWord 0 a
  writeWord 1 b

/-- The divide goes on: W0 and W1 are as the last execution left them (R386). -/
def State.divideUnderWay (s : State) : Option DivProgress :=
  match s.div with
  | some p => if s.readW 0 = p.w0 ∧ s.readW 1 = p.w1 then some p else none
  | none => none

/-- A quotient and remainder, free values where the spec gives none (U8). -/
def settle (q : Quotient) : M (Word × Word) :=
  match q with
  | some p => pure p
  | none => do
    let a ← draw 16
    let b ← draw 16
    pure (a, b)

/-- Execution number `k` of a divide with its final quotient and remainder (R386): the 18th writes them, an earlier one
leaves free values in W0 and W1. The flags are free after each (U8). DESIGN CHOICE (log 54): after the 18th the next
execution starts a new divide, so that in a longer REPEAT the 36th writes a quotient again. -/
def divIterate (k : Nat) (q r : Word) : M Unit := do
  drawFlags
  if k = 18 then do
    writeWord 0 q
    writeWord 1 r
    modS fun s => { s with div := none }
  else do
    drawPair
    modS fun s => { s with div := some { k := k, q := q, r := r, w0 := s.readW 0, w1 := s.readW 1 } }

/-- `DivStep` (R386, R387, log 23). -/
def divStep (zeroDivisor : Bool) (quotient : Quotient) : M Unit := do
  let s ← getS
  match s.divideUnderWay with
  | some p => divIterate (p.k + 1) p.q p.r
  | none =>
    if zeroDivisor then do
      drawFlags
      drawPair
      modS fun s => { s with intcon1 := { s.intcon1 with div0err := true } }
      raise .arithmetic
    else do
      let p ← settle quotient
      divIterate 1 p.1 p.2

/-- The registers of a 32-bit dividend are a pair that starts at an even register (R380, R382). -/
def refuseNoPair (hi lo : RegNum) : M Unit := stopIf (lo.getLsbD 0 || hi != lo + 1) (.refused .oddPair)

/-- `DIV.SW Wm, Wn` (R381). -/
def execDivSW (m n : RegNum) (s : State) : Host.Outcome State Fault Refusal :=
  outcome (divStep (s.readW n == 0) (signedQuotient (s.readW m).toInt (s.readW n).toInt)) s

/-- `DIV.SD Wm, Wn` (R382). -/
def execDivSD (hi lo n : RegNum) (s : State) : Host.Outcome State Fault Refusal :=
  outcome (do
    refuseNoPair hi lo
    divStep (s.readW n == 0) (signedQuotient (s.readW hi ++ s.readW lo).toInt (s.readW n).toInt)) s

/-- `DIV.UW Wm, Wn` (R383). -/
def execDivUW (m n : RegNum) (s : State) : Host.Outcome State Fault Refusal :=
  outcome (divStep (s.readW n == 0) (unsignedQuotient (s.readW m).toNat (s.readW n).toNat)) s

/-- `DIV.UD Wm, Wn` (R384). -/
def execDivUD (hi lo n : RegNum) (s : State) : Host.Outcome State Fault Refusal :=
  outcome (do
    refuseNoPair hi lo
    divStep (s.readW n == 0) (unsignedQuotient (s.readW hi ++ s.readW lo).toNat (s.readW n).toNat)) s

/-- `DIVF Wm, Wn` (R385). -/
def execDivF (m n : RegNum) (s : State) : Host.Outcome State Fault Refusal :=
  outcome (divStep (s.readW n == 0) (fractionalQuotient (s.readW m).toInt (s.readW n).toInt)) s

end Sys2Proof.Machine
end

