-- ==== Sys2Proof/Machine/Multiply.lean ====
section
/-! DEFINITION. The MCU multiplies (spec/41_mcu_alu.md R269 to R273). CORCON.IF and CORCON.US play no part. -/

namespace Sys2Proof.Machine

/-- The integer that a multiplier input stands for: `signed` or `unsigned` (R269, R310). -/
def mulInput (isSigned : Bool) (v : Word) : Int := if isSigned then v.toInt else (v.toNat : Int)

/-- Store a 32-bit product in the pair `Wnd+1:Wnd` (R270). -/
def writeProduct (d : RegNum) (p : Int) : M Unit := do
  writeWord d ((BitVec.ofInt 32 p).extractLsb' 0 16)
  writeWord (d + 1) ((BitVec.ofInt 32 p).extractLsb' 16 16)

/-- `MUL.xx Wb, Ws, Wnd` with the signedness of its two operands (R269 to R273). -/
def multiply (signedB signedS : Bool) (b d : RegNum) (src : Operand) : M Unit := do
  refuseOdd d
  refuseConflict (conflictsReg src d || conflictsReg src (d + 1))
  let a ← readW b
  let v ← readOperand 0 false src
  writeProduct d (mulInput signedB a * mulInput signedS v)

/-- `MUL.UU Wb, Ws, Wnd` (R270). -/
def execMulUU (b d : RegNum) (src : Operand) (s : State) : Host.Outcome State Fault Refusal :=
  outcome (multiply false false b d src) s

/-- `MUL.US Wb, Ws, Wnd` (R273). -/
def execMulUS (b d : RegNum) (src : Operand) (s : State) : Host.Outcome State Fault Refusal :=
  outcome (multiply false true b d src) s

/-- `MUL.SU Wb, Ws, Wnd` (R272). -/
def execMulSU (b d : RegNum) (src : Operand) (s : State) : Host.Outcome State Fault Refusal :=
  outcome (multiply true false b d src) s

/-- `MUL.SS Wb, Ws, Wnd` (R271). -/
def execMulSS (b d : RegNum) (src : Operand) (s : State) : Host.Outcome State Fault Refusal :=
  outcome (multiply true true b d src) s

/-- `MUL{.B} f`: W0 by the file register, into W2 in byte mode and into W3:W2 in word mode (R270). -/
def execMulFile (byte : Bool) (f : BitVec 13) (s : State) : Host.Outcome State Fault Refusal :=
  outcome (do
    let m ← memRead byte (fileAddress f)
    let a ← readW 0
    if byte then writeWord 2 (BitVec.ofNat 16 ((sized true a).toNat * m.toNat))
    else writeProduct 2 (mulInput false a * mulInput false m)) s

end Sys2Proof.Machine
end

