-- ==== Sys2Proof/Machine/Engine.lean ====
section
/-! DEFINITION. The DSP engine: products, the accumulator write with its saturation modes, rounding, data space write
saturation, the 40-bit shifter, prefetch and write-back (spec/42_dsp_engine.md R300 to R339). -/

namespace Sys2Proof.Machine

/-- `DspProduct(x, y)` as an integer: signed unless US is set, doubled in fractional mode (R311, R312). -/
def dspProduct (c : CoreControl) (x y : Word) : Int :=
  let p := mulInput (!c.us) x * mulInput (!c.us) y
  if c.ifm then p else 2 * p

/-- What `AccWrite` decides for a true result `t` (R333). -/
structure AccResult where
  value : AccWord
  /-- The new overflow bit OA or OB. -/
  overflow : Bool
  /-- The sticky bit SA or SB is set. -/
  saturated : Bool
  /-- A catastrophic overflow. -/
  catastrophic : Bool
  deriving DecidableEq, Repr

/-- `-2^(n-1) ≤ t ≤ 2^(n-1) - 1` -/
def fits (n : Nat) (t : Int) : Bool := decide (-(2 ^ (n - 1)) ≤ t) && decide (t ≤ 2 ^ (n - 1) - 1)

/-- The three modes of R333: 31-bit saturation, 39-bit saturation, no saturation. -/
def accResult (sat accsat : Bool) (t : Int) : AccResult :=
  if sat && !accsat then
    { value := if fits 32 t then BitVec.ofInt 40 t else if 0 < t then 0x007FFFFFFF else 0xFF80000000
      overflow := false
      saturated := !fits 32 t
      catastrophic := false }
  else if sat then
    { value := if fits 40 t then BitVec.ofInt 40 t else if 0 < t then 0x7FFFFFFFFF else 0x8000000000
      overflow := !fits 32 t
      saturated := !fits 40 t
      catastrophic := false }
  else
    { value := BitVec.ofInt 40 t
      overflow := !fits 32 t
      saturated := !fits 40 t
      catastrophic := !fits 40 t }

/-- SATA or SATB. -/
def CoreControl.satOf (c : CoreControl) : Acc → Bool
  | .accA => c.sata
  | .accB => c.satb

/-- OA, SA or OB, SB after an accumulator write (R331, R332). -/
def StatusReg.withAcc (r : StatusReg) (a : Acc) (x : AccResult) : StatusReg :=
  match a with
  | .accA => { r with oa := x.overflow, sa := r.sa || x.saturated }
  | .accB => { r with ob := x.overflow, sb := r.sb || x.saturated }

/-- The arithmetic traps that an accumulator write raises, by their enables (R334). -/
def accTraps (i : IntControl) (a : Acc) (x : AccResult) : Bool :=
  (x.overflow && (match a with | .accA => i.ovate | .accB => i.ovbte)) || (x.catastrophic && i.covte)

/-- The status bits that those traps set in INTCON1 (R334). -/
def IntControl.withAcc (i : IntControl) (a : Acc) (x : AccResult) : IntControl :=
  match a with
  | .accA => { i with ovaerr := i.ovaerr || (x.overflow && i.ovate), covaerr := i.covaerr || (x.catastrophic && i.covte) }
  | .accB => { i with ovberr := i.ovberr || (x.overflow && i.ovbte), covberr := i.covberr || (x.catastrophic && i.covte) }

/-- `AccWrite(x, t)` (R333, R334); a trap becomes pending and the instruction goes on. -/
def State.accWrite (s : State) (a : Acc) (t : Int) : State :=
  let x := accResult (s.corcon.satOf a) s.corcon.accsat t
  let u := { s.setAcc a x.value with sr := s.sr.withAcc a x, intcon1 := s.intcon1.withAcc a x }
  if accTraps s.intcon1 a x then u.pend .arithmetic else u

/-- `AccWrite` as an operation. -/
def accWrite (a : Acc) (t : Int) : M Unit := modS fun s => s.accWrite a t

/-- `RoundUp(a)` (R335): conventional with RND set, convergent otherwise. -/
def roundUp (rnd : Bool) (a : AccWord) : Bool :=
  let lsw := (a.extractLsb' 0 16).toNat
  if rnd then decide (0x8000 ≤ lsw) else decide (0x8000 < lsw) || (lsw == 0x8000 && a.getLsbD 16)

/-- `Upper(a, rounded)` as an integer (R335). -/
def upper (rnd rounded : Bool) (a : AccWord) : Int :=
  (a.extractLsb' 16 24).toInt + (if rounded && roundUp rnd a then 1 else 0)

/-- `Shift40(a, s)` (R337): a positive `s` shifts right arithmetically, a negative one left. -/
def shift40 (a : AccWord) (s : Int) : AccWord := if 0 ≤ s then a.sshiftRight s.toNat else a <<< (-s).toNat

/-- `ShiftTrue(a, s)` as an integer (R337). -/
def shiftTrue (a s : Int) : Int := if 0 ≤ s then a / 2 ^ s.toNat else a * 2 ^ (-s).toNat

/-- `StoreValue(a, shift, rounded)` (R336). -/
def storeValue (c : CoreControl) (a : AccWord) (shift : Int) (rounded : Bool) : Word :=
  let h := upper c.rnd rounded (shift40 a shift)
  if c.satdw && decide (0x7FFF < h) then 0x7FFF
  else if c.satdw && decide (h < -0x8000) then 0x8000
  else BitVec.ofInt 16 h

/-- The 16-bit datum of LAC and ADD as the 40-bit value `d :: 0x0000` (R351). -/
def accDatum (d : Word) : Int := d.toInt * 2 ^ 16

/-- The accumulator that is not the target (R338). -/
def otherAcc : Acc → Acc
  | .accA => .accB
  | .accB => .accA

/-- The two registers of `Wm*Wn` (R303). -/
def pairRegs : MulPair → RegNum × RegNum
  | .w4w5 => (4, 5)
  | .w4w6 => (4, 6)
  | .w4w7 => (4, 7)
  | .w5w6 => (5, 6)
  | .w5w7 => (5, 7)
  | .w6w7 => (6, 7)

/-- The register W4 to W7 that a two-bit field names (R303, log 27). -/
def operandReg (m : BitVec 2) : RegNum := 0b01#2 ++ m

/-- The prefetch pointer: W8, W9 in X and W10, W11 in Y (R303, R339). -/
def prefetchPointer (ySpace second : Bool) : RegNum := 0b10#2 ++ BitVec.ofBool ySpace ++ BitVec.ofBool second

/-- `kx`, `ky` (R303). -/
def stepAmount : PrefetchStep → Word
  | .zero => 0
  | .plus2 => 2
  | .plus4 => 4
  | .plus6 => 6
  | .minus6 => 0xFFFA
  | .minus4 => 0xFFFC
  | .minus2 => 0xFFFE

/-- The address lies in Y data space (R10, R100). -/
def State.inY (s : State) (ea : Word) : Bool :=
  decide (s.dev.yStart.toNat ≤ ea.toNat) && decide (ea.toNat ≤ s.dev.yEnd.toNat)

/-- The word that a prefetch reads; the address must lie in its own space (R339, U7). DESIGN CHOICE (log 42): an address
that is odd as well as in the wrong space is an AddressError. -/
def spaceRead (ySpace : Bool) (ea : Word) : M Word := do
  addressErrorIf (ea.getLsbD 0)
  let s ← getS
  stopIf (ySpace && !s.inY ea) (.fault .yPrefetchOutsideY)
  stopIf (!ySpace && s.inY ea) (.fault .xPrefetchInY)
  memRead false ea

/-- The word that a prefetch gives, if there is one (R339). DESIGN CHOICE (log 42): in the indexed form W9 or W11 is the
pointer that R27 asks to be initialised, and W12 is read as data. -/
def prefetchRead (ySpace : Bool) (p : Prefetch) : M (Option Word) :=
  match p with
  | .none => pure none
  | .pointer second _ => do
    let r := prefetchPointer ySpace second
    sourceThrough r
    let ea ← ptr r
    let v ← spaceRead ySpace ea
    pure (some v)
  | .indexed => do
    let r := prefetchPointer ySpace true
    sourceThrough r
    sourceThrough 12
    let base ← ptr r
    let off ← readW 12
    let v ← spaceRead ySpace (base + off)
    pure (some v)

/-- The pointer modification of a prefetch (R339). -/
def prefetchModify (ySpace : Bool) (p : Prefetch) : M Unit :=
  match p with
  | .none => pure ()
  | .indexed => pure ()
  | .pointer second step =>
    if step = .zero then pure ()
    else do
      let r := prefetchPointer ySpace second
      let v ← readW r
      writeWord r (v + stepAmount step)

/-- Write a prefetched word, if there is one. -/
def prefetchWrite (r : RegNum) (v : Option Word) : M Unit :=
  match v with
  | some x => writeWord r x
  | none => pure ()

/-- There is a prefetch. -/
def hasPrefetch (p : Prefetch) : Bool :=
  match p with
  | .none => false
  | .pointer _ _ => true
  | .indexed => true

/-- Two prefetches into one register: not resolved by the spec (U5, log 17). -/
def prefetchConflict (xd yd : BitVec 2) (x y : Prefetch) : Bool := hasPrefetch x && hasPrefetch y && xd == yd

/-- The reads of `Prefetch(X part, Y part)` (R339), X first. -/
def prefetchReads (x y : Prefetch) : M (Option Word × Option Word) := do
  let dx ← prefetchRead false x
  let dy ← prefetchRead true y
  pure (dx, dy)

/-- The pointer modifications of `Prefetch(X part, Y part)` (R339). -/
def prefetchMoveBoth (x y : Prefetch) : M Unit := do
  prefetchModify false x
  prefetchModify true y

/-- `WriteBack(x, mode)` of a value taken before the accumulator write (R338, R340). The pointer is modified before the
data write, which dominates (R112, log 27). -/
def writeBack (wb : WriteBack) (v : Word) : M Unit :=
  match wb with
  | .none => pure ()
  | .w13 => writeWord 13 v
  | .w13Inc => do
    let ea ← ptr 13
    addressErrorIf (ea.getLsbD 0)
    writeWord 13 (ea + 2)
    memWrite false ea v

end Sys2Proof.Machine
end

