-- ==== Sys2Proof/Machine/Dsp.lean ====
section
/-! DEFINITION. The DSP instructions (spec/42_dsp_engine.md R340 to R355). The MCU flags are not written. -/

namespace Sys2Proof.Machine

/-- The MAC class (R340 to R345): the operands, the write-back value and the prefetched words are read first (R141, D21,
log 47), then the accumulator is written with `f` of its old value and the product, then the prefetched registers and
pointers and the write-back. -/
def macClass (m n : RegNum) (a : Acc) (xd yd : BitVec 2) (x y : Prefetch) (wb : WriteBack) (f : Int → Int → Int) :
    M Unit := do
  refuseConflict (prefetchConflict xd yd x y)
  let s ← getS
  let d ← prefetchReads x y
  accWrite a (f (s.acc a).toInt (dspProduct s.corcon (s.readW m) (s.readW n)))
  prefetchWrite (operandReg xd) d.1
  prefetchWrite (operandReg yd) d.2
  prefetchMoveBoth x y
  writeBack wb (storeValue s.corcon (s.acc (otherAcc a)) 0 true)

/-- `MAC Wm*Wn, Acc` (R340). -/
def execMac (m : MulPair) (a : Acc) (xd yd : BitVec 2) (x y : Prefetch) (wb : WriteBack) (s : State) :
    Host.Outcome State Fault Refusal :=
  outcome (macClass (pairRegs m).1 (pairRegs m).2 a xd yd x y wb fun acc p => acc + p) s

/-- `MPY Wm*Wn, Acc` (R343). -/
def execMpy (m : MulPair) (a : Acc) (xd yd : BitVec 2) (x y : Prefetch) (s : State) :
    Host.Outcome State Fault Refusal :=
  outcome (macClass (pairRegs m).1 (pairRegs m).2 a xd yd x y .none fun _ p => p) s

/-- `MSC Wm*Wn, Acc` (R342). -/
def execMsc (m : MulPair) (a : Acc) (xd yd : BitVec 2) (x y : Prefetch) (wb : WriteBack) (s : State) :
    Host.Outcome State Fault Refusal :=
  outcome (macClass (pairRegs m).1 (pairRegs m).2 a xd yd x y wb fun acc p => acc - p) s

/-- `MPY.N Wm*Wn, Acc` (R345). -/
def execMpyN (m : MulPair) (a : Acc) (xd yd : BitVec 2) (x y : Prefetch) (s : State) :
    Host.Outcome State Fault Refusal :=
  outcome (macClass (pairRegs m).1 (pairRegs m).2 a xd yd x y .none fun _ p => -p) s

/-- `MAC Wm*Wm, Acc` (R341). -/
def execMacSq (m : BitVec 2) (a : Acc) (xd yd : BitVec 2) (x y : Prefetch) (s : State) :
    Host.Outcome State Fault Refusal :=
  outcome (macClass (operandReg m) (operandReg m) a xd yd x y .none fun acc p => acc + p) s

/-- `MPY Wm*Wm, Acc` (R344). -/
def execMpySq (m : BitVec 2) (a : Acc) (xd yd : BitVec 2) (x y : Prefetch) (s : State) :
    Host.Outcome State Fault Refusal :=
  outcome (macClass (operandReg m) (operandReg m) a xd yd x y .none fun _ p => p) s

/-- ED and EDAC (R346, R347): the accumulator takes the square of Wm, and Wxd the difference of the two prefetched
words, which are read first (R141, D21, log 47). -/
def distance (m : BitVec 2) (a : Acc) (xd : BitVec 2) (x y : Prefetch) (f : Int → Int → Int) : M Unit := do
  stopIf (!hasPrefetch x || !hasPrefetch y) (.refused .reservedOperand)
  let s ← getS
  let d ← prefetchReads x y
  accWrite a (f (s.acc a).toInt (dspProduct s.corcon (s.readW (operandReg m)) (s.readW (operandReg m))))
  writeWord (operandReg xd) (d.1.getD 0 - d.2.getD 0)
  prefetchMoveBoth x y

/-- `EDAC Wm*Wm, Acc, Wx, Wy, Wxd` (R347). -/
def execEdac (m : BitVec 2) (a : Acc) (xd : BitVec 2) (x y : Prefetch) (s : State) :
    Host.Outcome State Fault Refusal :=
  outcome (distance m a xd x y fun acc p => acc + p) s

/-- `ED Wm*Wm, Acc, Wx, Wy, Wxd` (R346). -/
def execEd (m : BitVec 2) (a : Acc) (xd : BitVec 2) (x y : Prefetch) (s : State) :
    Host.Outcome State Fault Refusal :=
  outcome (distance m a xd x y fun _ p => p) s

/-- `SFTAC` by a signed count (R355): out of range the accumulator stays, SFTACERR is set and the arithmetic trap is
raised. -/
def shiftAcc (a : Acc) (k : Int) : M Unit := do
  let s ← getS
  if decide (k < -16) || decide (16 < k) then do
    modS fun s => { s with intcon1 := { s.intcon1 with sftacerr := true } }
    raise .arithmetic
  else accWrite a (shiftTrue (s.acc a).toInt k)

/-- `SFTAC Acc, Wb`: the count is the low six bits of the register, sign-extended (R355). -/
def execSftacReg (a : Acc) (r : RegNum) (s : State) : Host.Outcome State Fault Refusal :=
  outcome (shiftAcc a ((s.readW r).extractLsb' 0 6).toInt) s

/-- `SFTAC Acc, #Slit6` (R355). -/
def execSftacLit (a : Acc) (amount : BitVec 6) (s : State) : Host.Outcome State Fault Refusal :=
  outcome (shiftAcc a amount.toInt) s

/-- `ADD Ws, {#Slit4,} Acc` (R351). -/
def execAddAccSrc (a : Acc) (b : RegNum) (shift : BitVec 4) (src : Operand) (s : State) :
    Host.Outcome State Fault Refusal :=
  outcome (do
    let d ← readOperand b false src
    let t ← getS
    accWrite a ((t.acc a).toInt + shiftTrue (accDatum d) shift.toInt)) s

/-- `LAC Ws, {#Slit4,} Acc` (R352). -/
def execLac (a : Acc) (b : RegNum) (shift : BitVec 4) (src : Operand) (s : State) : Host.Outcome State Fault Refusal :=
  outcome (do
    let d ← readOperand b false src
    accWrite a (shiftTrue (accDatum d) shift.toInt)) s

/-- `ADD Acc` (R350). -/
def execAddAcc (a : Acc) (s : State) : Host.Outcome State Fault Refusal :=
  outcome (accWrite a ((s.acc a).toInt + (s.acc (otherAcc a)).toInt)) s

/-- `SAC Acc, {#Slit4,} Wd` (R353). -/
def execSac (a : Acc) (b : RegNum) (shift : BitVec 4) (dst : Operand) (s : State) : Host.Outcome State Fault Refusal :=
  outcome (writeOperand b false dst (storeValue s.corcon (s.acc a) shift.toInt false)) s

/-- `SAC.R Acc, {#Slit4,} Wd` (R354). -/
def execSacR (a : Acc) (b : RegNum) (shift : BitVec 4) (dst : Operand) (s : State) :
    Host.Outcome State Fault Refusal :=
  outcome (writeOperand b false dst (storeValue s.corcon (s.acc a) shift.toInt true)) s

end Sys2Proof.Machine
end

