-- ==== Sys2Proof/Machine/Flow.lean ====
section
/-! DEFINITION. Program flow: NOP, calls, branches, returns, DISI, PWRSAV, RESET, TBLRDL
(spec/44_control_flow.md). -/

namespace Sys2Proof.Machine

/-- `NOP` (R410). -/
def execNop (s : State) : Host.Outcome State Fault Refusal := outcome (pure ()) s

/-- `CALL Expr` (R401, R400). -/
def execCall (target : PcAddr) (s : State) : Host.Outcome State Fault Refusal :=
  outcome (do
    let ra ← pcPlus s.pc 4
    pushPcCall ra
    jumpTo target) s

/-- `RCALL Expr` (R402): the target is a signed word offset from the next instruction (R170). -/
def execRcall (off : BitVec 16) (s : State) : Host.Outcome State Fault Refusal :=
  outcome (do
    let ra ← pcPlus s.pc 2
    let target ← pcPlus s.pc (2 + 2 * off.toInt)
    pushPcCall ra
    jumpTo target) s

/-- `GOTO Expr` (R403). -/
def execGoto (target : PcAddr) (s : State) : Host.Outcome State Fault Refusal := outcome (jumpTo target) s

/-- `BRA Expr` (R404): the target is a signed word offset from the next instruction (R170). -/
def execBra (off : BitVec 16) (s : State) : Host.Outcome State Fault Refusal :=
  outcome (do
    let target ← pcPlus s.pc (2 + 2 * off.toInt)
    jumpTo target) s

/-- `RETURN` (R405). -/
def execRet (s : State) : Host.Outcome State Fault Refusal := outcome returnFromCall s

/-- `RETLW{.B} #lit10, Wn` (R406; byte mode: log 29). With W15 as `Wn` the literal and the pops write one register (R581,
U5). -/
def execRetlw (byte : Bool) (lit : BitVec 10) (d : RegNum) (s : State) : Host.Outcome State Fault Refusal :=
  outcome (do
    refuseConflict (d == 15)
    writeReg byte d (lit.setWidth 16)
    returnFromCall) s

/-- `RETFIE` (R407, R525). -/
def execRetfie (s : State) : Host.Outcome State Fault Refusal := outcome returnFromException s

/-- `DISI #lit14` (R430). -/
def execDisi (lit : BitVec 14) (s : State) : Host.Outcome State Fault Refusal :=
  outcome (modS fun s => { s with disicnt := lit }) s

/-- `RESET` (R432). -/
def execReset (s : State) : Host.Outcome State Fault Refusal := outcome (modS deviceReset) s

/-- `PWRSAV #lit1`: refused, as the spec says (R431, R545, U10). -/
def execPwrsav (_k : BitVec 1) (_s : State) : Host.Outcome State Fault Refusal := .refused .powerSaving

/-- The program address of a table access, `TBLPAG :: ea` less its bit 0; bit 23 must be 0 (R122, R440). -/
def tableAddress (ea : Word) : M PcAddr := do
  let s ← getS
  stopIf (s.tblpag.getLsbD 7) (.fault .tableAddress)
  pure (evenPc (s.tblpag.extractLsb' 0 7 ++ ea))

/-- `TBLRDL{.B} Ws, Wd` (R440). DESIGN CHOICE (log 42): a word access at an odd address is an AddressError before TBLPAG
is looked at. -/
def execTblrdl (byte : Bool) (dst src : Operand) (s : State) : Host.Outcome State Fault Refusal :=
  outcome (do
    stopIf src.isDirect (.refused .reservedOperand)
    refuseConflict (conflicts src dst)
    let ea ← sourceAddress 0 (stepOf byte) src
    addressErrorIf (!byte && ea.getLsbD 0)
    let pa ← tableAddress ea
    let d ← progData pa
    writeOperand 0 byte dst (laneOrWord byte ea d)) s

end Sys2Proof.Machine
end

