-- ==== Sys2Proof/Machine/Loop.lean ====
section
/-! DEFINITION. REPEAT and DO (spec/45_loops.md R450 to R461, R480). What the loops do to the pc after each instruction
is in Machine/Sequence.lean. -/

namespace Sys2Proof.Machine

/-- REPEAT with its count (R450). -/
def State.startRepeat (s : State) (count : BitVec 14) : State :=
  { s with rcount := count, sr := { s.sr with ra := count != 0 }, div := none }

/-- `REPEAT #lit14` (R450). -/
def execRepeatLit (count : BitVec 14) (s : State) : Host.Outcome State Fault Refusal :=
  outcome (modS fun s => s.startRepeat count) s

/-- `REPEAT Wn`: the low 14 bits count (R451, D14). -/
def execRepeatReg (r : RegNum) (s : State) : Host.Outcome State Fault Refusal :=
  outcome (modS fun s => s.startRepeat ((s.readW r).extractLsb' 0 14)) s

/-- DO with its count and its first and last address (R460, R465): the three registers go to their shadows and are
loaded, and DL goes up. -/
def State.startDo (s : State) (count : BitVec 14) (first lastAddr : PcAddr) : State :=
  { s with
    dostartShadow := s.dostart
    doendShadow := s.doend
    dcountShadow := s.dcount
    dostart := first
    doend := lastAddr
    dcount := count.setWidth 16
    corcon := { s.corcon with dl := s.corcon.dl + 1 } }.markLoop.mark fun m => { m with doend := true }

/-- DO with its count and loop length (R460, R480): the last instruction is `length` words after the first. DL = 7 and
the lengths -2, -1, 0 are refused (U11, U12). -/
def startLoop (count : BitVec 14) (off : BitVec 16) : M Unit := do
  let s ← getS
  stopIf (s.corcon.dl == 7) (.refused .doNesting)
  stopIf (off == 0 || off == 0xFFFF || off == 0xFFFE) (.refused .doLoopLength)
  let first ← pcPlus s.pc 4
  let lastAddr ← pcPlus s.pc (4 + 2 * off.toInt)
  modS fun s => s.startDo count first lastAddr

/-- `DO #lit14, Expr` (R460). -/
def execDoLit (count : BitVec 14) (off : BitVec 16) (s : State) : Host.Outcome State Fault Refusal :=
  outcome (startLoop count off) s

/-- `DO Wn, Expr`: the low 14 bits count (R461). -/
def execDoReg (r : RegNum) (off : BitVec 16) (s : State) : Host.Outcome State Fault Refusal :=
  outcome (startLoop ((s.readW r).extractLsb' 0 14) off) s

end Sys2Proof.Machine
end

