-- ==== Sys2Proof/Machine/Move.lean ====
section
/-! DEFINITION. MOV in all its forms, SE and ZE (spec/40_mcu_move_stack.md R210 to R216, R230, R231). -/

namespace Sys2Proof.Machine

/-- `MOV{.B} Ws, Wd` (R210). -/
def execMov (b : RegNum) (byte : Bool) (dst src : Operand) (s : State) : Host.Outcome State Fault Refusal :=
  outcome (do
    refuseConflict (conflicts src dst)
    let v ← readOperand b byte src
    writeOperand b byte dst v) s

/-- `MOV f, Wnd` (R211). -/
def execMovFromFile (f : BitVec 16) (d : RegNum) (s : State) : Host.Outcome State Fault Refusal :=
  outcome (do
    let v ← memRead false f
    writeWord d v) s

/-- `MOV Wns, f` (R212). -/
def execMovToFile (f : BitVec 16) (r : RegNum) (s : State) : Host.Outcome State Fault Refusal :=
  outcome (do
    let v ← readW r
    memWrite false f v) s

/-- `MOV{.B} WREG, f` (R213). -/
def execMovWregToFile (byte : Bool) (f : BitVec 13) (s : State) : Host.Outcome State Fault Refusal :=
  outcome (do
    let v ← readW 0
    memWrite byte (fileAddress f) v) s

/-- `MOV{.B} f {,WREG}`: no rule (R213, R154, U1). -/
def execMovFile (_byte _toFile : Bool) (_f : BitVec 13) (_s : State) : Host.Outcome State Fault Refusal :=
  .refused .noRule

/-- `MOV #lit16, Wnd` (R215). -/
def execMovLit16 (lit : BitVec 16) (d : RegNum) (s : State) : Host.Outcome State Fault Refusal :=
  outcome (writeWord d lit) s

/-- `MOV.B #lit8, Wnd` (R216). -/
def execMovLit8 (lit : BitVec 8) (d : RegNum) (s : State) : Host.Outcome State Fault Refusal :=
  outcome (writeByte d lit) s

/-- The two words that `MOV.D` loads, low first: two registers, or two memory words at `ea` and `ea + 2` (R214). The
second address too is one that W15 generates, where W15 is the pointer. DESIGN CHOICE (log 19): it is checked after the
pointer modification and the first read, so W15 has its new value where that check fails. -/
def readDouble (src : Operand) : M (Word × Word) :=
  if src.isDirect then do
    refuseOdd src.reg
    let lo ← readW src.reg
    let hi ← readW (src.reg + 1)
    pure (lo, hi)
  else do
    let ea ← sourceAddress 0 4 src
    let lo ← memRead false ea
    checkEa (src.usesStack 0) (ea + 2) (decide (2 ^ 16 ≤ ea.toNat + 2))
    let hi ← memRead false (ea + 2)
    pure (lo, hi)

/-- The two words that `MOV.D` stores, low first, in ascending address order (R113, R214). DESIGN CHOICE (log 19): where
W15 is the pointer the second address is checked after the pointer modification and the first store, which stay where
that check fails. -/
def writeDouble (dst : Operand) (lo hi : Word) : M Unit :=
  if dst.isDirect then do
    refuseOdd dst.reg
    writeWord dst.reg lo
    writeWord (dst.reg + 1) hi
  else do
    let ea ← operandAddress 0 4 dst
    memWrite false ea lo
    checkEa (dst.usesStack 0) (ea + 2) (decide (2 ^ 16 ≤ ea.toNat + 2))
    memWrite false (ea + 2) hi

/-- `MOV.D Ws, Wnd` (R214). -/
def execMovDLoad (d : RegNum) (src : Operand) (s : State) : Host.Outcome State Fault Refusal :=
  outcome (do
    refuseOdd d
    refuseConflict (conflictsReg src d || conflictsReg src (d + 1))
    let v ← readDouble src
    writeWord d v.1
    writeWord (d + 1) v.2) s

/-- `MOV.D Wns, Wd` (R214). DESIGN CHOICE (log 49): both registers are read first, as R201 has it, before the pointer
modification and the stores. -/
def execMovDStore (dst : Operand) (r : RegNum) (s : State) : Host.Outcome State Fault Refusal :=
  outcome (do
    refuseOdd r
    let lo ← readW r
    let hi ← readW (r + 1)
    writeDouble dst lo hi) s

/-- `SE Ws, Wnd` (R230). -/
def execSe (d : RegNum) (src : Operand) (s : State) : Host.Outcome State Fault Refusal :=
  outcome (do
    refuseConflict (conflictsReg src d)
    let v ← readOperand 0 true src
    let b : Byte := v.extractLsb' 0 8
    modSr fun r => r.withCNZ (!b.msb) b.msb (b == 0)
    writeWord d (b.signExtend 16)) s

/-- `ZE Ws, Wnd` (R231). -/
def execZe (d : RegNum) (src : Operand) (s : State) : Host.Outcome State Fault Refusal :=
  outcome (do
    refuseConflict (conflictsReg src d)
    let v ← readOperand 0 true src
    let b : Byte := v.extractLsb' 0 8
    modSr fun r => r.withCNZ true false (b == 0)
    writeWord d (b.setWidth 16)) s

end Sys2Proof.Machine
end

