-- ==== Sys2Proof/Machine/Shift.lean ====
section
/-! DEFINITION. The MCU shifts SL, LSR and ASR: one bit, or many bits of a word (spec/41_mcu_alu.md R264 to R267). -/

namespace Sys2Proof.Machine

/-- `SL{.B} Ws, Wd` (R267). -/
def execSlOne (byte : Bool) (dst src : Operand) (s : State) : Host.Outcome State Fault Refusal :=
  outcome (unaryOp byte dst src (aluShiftOne .sl byte)) s

/-- `LSR{.B} Ws, Wd` (R266). -/
def execLsrOne (byte : Bool) (dst src : Operand) (s : State) : Host.Outcome State Fault Refusal :=
  outcome (unaryOp byte dst src (aluShiftOne .lsr byte)) s

/-- `ASR{.B} Ws, Wd` (R265). -/
def execAsrOne (byte : Bool) (dst src : Operand) (s : State) : Host.Outcome State Fault Refusal :=
  outcome (unaryOp byte dst src (aluShiftOne .asr byte)) s

/-- `SL{.B} f {,WREG}` (R267). -/
def execSlFile (byte toFile : Bool) (f : BitVec 13) (s : State) : Host.Outcome State Fault Refusal :=
  outcome (fileOp byte toFile f (aluShiftOne .sl byte)) s

/-- `LSR{.B} f {,WREG}` (R266). -/
def execLsrFile (byte toFile : Bool) (f : BitVec 13) (s : State) : Host.Outcome State Fault Refusal :=
  outcome (fileOp byte toFile f (aluShiftOne .lsr byte)) s

/-- `ASR{.B} f {,WREG}` (R265). -/
def execAsrFile (byte toFile : Bool) (f : BitVec 13) (s : State) : Host.Outcome State Fault Refusal :=
  outcome (fileOp byte toFile f (aluShiftOne .asr byte)) s

/-- Shift `Wb` by a count and store it in `Wnd`. -/
def shiftInto (kind : ShiftKind) (b d : RegNum) (count : Nat) : M Unit := do
  let a ← readW b
  let r ← aluShiftMany kind a count
  writeWord d r

/-- The count of the register forms: `Wns[4:0]` (R265). -/
def shiftCount (v : Word) : Nat := (v.extractLsb' 0 5).toNat

/-- `SL Wb, Wns, Wnd` (R267). -/
def execSlReg (b d r : RegNum) (s : State) : Host.Outcome State Fault Refusal :=
  outcome (shiftInto .sl b d (shiftCount (s.readW r))) s

/-- `SL Wb, #lit4, Wnd` (R267). -/
def execSlLit (b d : RegNum) (k : BitVec 4) (s : State) : Host.Outcome State Fault Refusal :=
  outcome (shiftInto .sl b d k.toNat) s

/-- `LSR Wb, Wns, Wnd` (R266). -/
def execLsrReg (b d r : RegNum) (s : State) : Host.Outcome State Fault Refusal :=
  outcome (shiftInto .lsr b d (shiftCount (s.readW r))) s

/-- `LSR Wb, #lit4, Wnd` (R266). -/
def execLsrLit (b d : RegNum) (k : BitVec 4) (s : State) : Host.Outcome State Fault Refusal :=
  outcome (shiftInto .lsr b d k.toNat) s

/-- `ASR Wb, Wns, Wnd` (R265). -/
def execAsrReg (b d r : RegNum) (s : State) : Host.Outcome State Fault Refusal :=
  outcome (shiftInto .asr b d (shiftCount (s.readW r))) s

/-- `ASR Wb, #lit4, Wnd` (R265). -/
def execAsrLit (b d : RegNum) (k : BitVec 4) (s : State) : Host.Outcome State Fault Refusal :=
  outcome (shiftInto .asr b d k.toNat) s

end Sys2Proof.Machine
end

