-- ==== Sys2Proof/Machine/Stack.lean ====
section
/-! DEFINITION. PUSH, POP, the shadow instructions, LNK and ULNK (spec/40_mcu_move_stack.md R220 to R225). -/

namespace Sys2Proof.Machine

/-- `PUSH Wn` (R220): the value is the one before the increment. -/
def execPush (r : RegNum) (s : State) : Host.Outcome State Fault Refusal :=
  outcome (do
    let v ← readW r
    push v) s

/-- `POP Wn` (R221). `POP W15` is `MOV [--W15], W15`, which R201 leaves open (log 17). -/
def execPop (d : RegNum) (s : State) : Host.Outcome State Fault Refusal :=
  outcome (do
    refuseConflict (d == 15)
    let v ← pop
    writeWord d v) s

/-- `PUSH.S` (R222). -/
def execPushS (s : State) : Host.Outcome State Fault Refusal :=
  outcome (modS fun s =>
    { s with
      wShadow := #v[s.readW 0, s.readW 1, s.readW 2, s.readW 3]
      srShadow := { dc := s.sr.dc, n := s.sr.n, ov := s.sr.ov, z := s.sr.z, c := s.sr.c } }) s

/-- `POP.S` (R223). -/
def execPopS (s : State) : Host.Outcome State Fault Refusal :=
  outcome (do
    writeWord 0 s.wShadow[0]
    writeWord 1 s.wShadow[1]
    writeWord 2 s.wShadow[2]
    writeWord 3 s.wShadow[3]
    modSr fun r =>
      { r with dc := s.srShadow.dc, n := s.srShadow.n, ov := s.srShadow.ov, z := s.srShadow.z, c := s.srShadow.c }) s

/-- `LNK #lit14` (R224). -/
def execLnk (lit : BitVec 14) (s : State) : Host.Outcome State Fault Refusal :=
  outcome (do
    let fp ← readW 14
    push fp
    let sp ← readW 15
    writeWord 14 sp
    writeWord 15 (sp + lit.setWidth 16)) s

/-- `ULNK` (R225). -/
def execUlnk (s : State) : Host.Outcome State Fault Refusal :=
  outcome (do
    let fp ← readW 14
    writeWord 15 fp
    let v ← pop
    writeWord 14 v) s

end Sys2Proof.Machine
end

