-- ==== Sys2Proof/Machine/Dispatch.lean ====
section
/-! DEFINITION. Which meaning each instruction has. Every constructor of `Instr` has its own arm. -/

namespace Sys2Proof.Machine

/-- The effect of one instruction on the state; `step` adds what happens around it. -/
def exec (i : Instr) (s : State) : Host.Outcome State Fault Refusal :=
  match i with
  | .nop => Sys2Proof.Machine.execNop s
  | .call target => Sys2Proof.Machine.execCall target s
  | .goto target => Sys2Proof.Machine.execGoto target s
  | .retlw byte lit d => Sys2Proof.Machine.execRetlw byte lit d s
  | .ret => Sys2Proof.Machine.execRet s
  | .retfie => Sys2Proof.Machine.execRetfie s
  | .rcall off => Sys2Proof.Machine.execRcall off s
  | .doLit count off => Sys2Proof.Machine.execDoLit count off s
  | .doReg r off => Sys2Proof.Machine.execDoReg r off s
  | .repeatLit count => Sys2Proof.Machine.execRepeatLit count s
  | .repeatReg r => Sys2Proof.Machine.execRepeatReg r s
  | .movLit16 lit d => Sys2Proof.Machine.execMovLit16 lit d s
  | .bra off => Sys2Proof.Machine.execBra off s
  | .addReg b byte dst src => Sys2Proof.Machine.execAddReg b byte dst src s
  | .addLit5 b byte dst lit => Sys2Proof.Machine.execAddLit5 b byte dst lit s
  | .mov b byte dst src => Sys2Proof.Machine.execMov b byte dst src s
  | .push r => Sys2Proof.Machine.execPush r s
  | .pop d => Sys2Proof.Machine.execPop d s
  | .movFromFile f d => Sys2Proof.Machine.execMovFromFile f d s
  | .movToFile f r => Sys2Proof.Machine.execMovToFile f r s
  | .bsetInd bit byte src => Sys2Proof.Machine.execBsetInd bit byte src s
  | .bclrInd bit byte src => Sys2Proof.Machine.execBclrInd bit byte src s
  | .btscInd bit src => Sys2Proof.Machine.execBtscInd bit src s
  | .bsetFile bit f => Sys2Proof.Machine.execBsetFile bit f s
  | .bclrFile bit f => Sys2Proof.Machine.execBclrFile bit f s
  | .btscFile bit f => Sys2Proof.Machine.execBtscFile bit f s
  | .addLit10 byte lit d => Sys2Proof.Machine.execAddLit10 byte lit d s
  | .movLit8 lit d => Sys2Proof.Machine.execMovLit8 lit d s
  | .addFile byte toFile f => Sys2Proof.Machine.execAddFile byte toFile f s
  | .movWregToFile byte f => Sys2Proof.Machine.execMovWregToFile byte f s
  | .mulUU b d src => Sys2Proof.Machine.execMulUU b d src s
  | .mulUS b d src => Sys2Proof.Machine.execMulUS b d src s
  | .mulSU b d src => Sys2Proof.Machine.execMulSU b d src s
  | .mulSS b d src => Sys2Proof.Machine.execMulSS b d src s
  | .tblrdl byte dst src => Sys2Proof.Machine.execTblrdl byte dst src s
  | .mulFile byte f => Sys2Proof.Machine.execMulFile byte f s
  | .movDLoad d src => Sys2Proof.Machine.execMovDLoad d src s
  | .movDStore dst r => Sys2Proof.Machine.execMovDStore dst r s
  | .movFile byte toFile f => Sys2Proof.Machine.execMovFile byte toFile f s
  | .mac m a xd yd x y wb => Sys2Proof.Machine.execMac m a xd yd x y wb s
  | .mpy m a xd yd x y => Sys2Proof.Machine.execMpy m a xd yd x y s
  | .msc m a xd yd x y wb => Sys2Proof.Machine.execMsc m a xd yd x y wb s
  | .mpyN m a xd yd x y => Sys2Proof.Machine.execMpyN m a xd yd x y s
  | .sftacReg a r => Sys2Proof.Machine.execSftacReg a r s
  | .sftacLit a amount => Sys2Proof.Machine.execSftacLit a amount s
  | .addAccSrc a b shift src => Sys2Proof.Machine.execAddAccSrc a b shift src s
  | .lac a b shift src => Sys2Proof.Machine.execLac a b shift src s
  | .addAcc a => Sys2Proof.Machine.execAddAcc a s
  | .sac a b shift dst => Sys2Proof.Machine.execSac a b shift dst s
  | .sacR a b shift dst => Sys2Proof.Machine.execSacR a b shift dst s
  | .slOne byte dst src => Sys2Proof.Machine.execSlOne byte dst src s
  | .lsrOne byte dst src => Sys2Proof.Machine.execLsrOne byte dst src s
  | .asrOne byte dst src => Sys2Proof.Machine.execAsrOne byte dst src s
  | .slFile byte toFile f => Sys2Proof.Machine.execSlFile byte toFile f s
  | .lsrFile byte toFile f => Sys2Proof.Machine.execLsrFile byte toFile f s
  | .asrFile byte toFile f => Sys2Proof.Machine.execAsrFile byte toFile f s
  | .divSW m n => Sys2Proof.Machine.execDivSW m n s
  | .divSD hi lo n => Sys2Proof.Machine.execDivSD hi lo n s
  | .divUW m n => Sys2Proof.Machine.execDivUW m n s
  | .divUD hi lo n => Sys2Proof.Machine.execDivUD hi lo n s
  | .divF m n => Sys2Proof.Machine.execDivF m n s
  | .slReg b d r => Sys2Proof.Machine.execSlReg b d r s
  | .slLit b d k => Sys2Proof.Machine.execSlLit b d k s
  | .lsrReg b d r => Sys2Proof.Machine.execLsrReg b d r s
  | .lsrLit b d k => Sys2Proof.Machine.execLsrLit b d k s
  | .asrReg b d r => Sys2Proof.Machine.execAsrReg b d r s
  | .asrLit b d k => Sys2Proof.Machine.execAsrLit b d k s
  | .macSq m a xd yd x y => Sys2Proof.Machine.execMacSq m a xd yd x y s
  | .mpySq m a xd yd x y => Sys2Proof.Machine.execMpySq m a xd yd x y s
  | .edac m a xd x y => Sys2Proof.Machine.execEdac m a xd x y s
  | .ed m a xd x y => Sys2Proof.Machine.execEd m a xd x y s
  | .lnk lit => Sys2Proof.Machine.execLnk lit s
  | .ulnk => Sys2Proof.Machine.execUlnk s
  | .se d src => Sys2Proof.Machine.execSe d src s
  | .ze d src => Sys2Proof.Machine.execZe d src s
  | .disi lit => Sys2Proof.Machine.execDisi lit s
  | .reset => Sys2Proof.Machine.execReset s
  | .pwrsav k => Sys2Proof.Machine.execPwrsav k s
  | .popS => Sys2Proof.Machine.execPopS s
  | .pushS => Sys2Proof.Machine.execPushS s

end Sys2Proof.Machine
end

