-- ==== Sys2Proof/Machine/Sequence.lean ====
section
/-! DEFINITION. What a step does around the instruction: fetching, the hazards that refuse a program, the choice of the
next pc, the REPEAT hold, the end-of-loop test, the DISICNT countdown, and which exception is accepted
(spec/00_scope.md R14, spec/20_memory.md R120, spec/45_loops.md, spec/60_exceptions.md R505, R510, R530,
spec/70_reset_and_hazards.md). -/

namespace Sys2Proof.Machine

/-! ### Fetch -/

/-- What is found at the pc. -/
inductive Fetched where
  | instr (i : Instr)
  /-- The words of the instruction, of which there are this many, are not all implemented (R120, R505). -/
  | missing (words : Nat)
  | bad (why : Reject)
  deriving DecidableEq, Repr

/-- The bytes of the two program words from an address on. -/
def State.bytesAt (s : State) (a : PcAddr) : List Byte := bytesOfWord (s.progWord a) ++ bytesOfWord (s.progWord (a + 2))

/-- Decode the instruction at a program address (R120, R151). -/
def State.fetchAt (s : State) (a : PcAddr) : Fetched :=
  if !s.progImplemented a then .missing 1
  else if firstWordLength (s.progWord a) = 2 ∧ s.dev.progTop.toNat < a.toNat + 2 then .missing 2
  else
    match decode (s.bytesAt a) with
    | .ok (i, _) => .instr i
    | .error e => .bad e

/-- Fetch and decode the instruction at the pc (R120, R151). -/
def State.fetch (s : State) : Fetched := s.fetchAt s.pc

/-- The prefetch of the two words after the pc: where they are not both implemented, the illegal address trap becomes
pending (R505, log 12). -/
def State.notePrefetch (s : State) : State :=
  if s.dev.progTop.toNat < s.pc.toNat + 4 then s.pend .illegal else s

/-- Store a program word (log 3). -/
def State.setProgWord (s : State) (a : PcAddr) (w : ProgWord) : State :=
  { s with
    prog := ((s.prog.write (2 * a.toNat) (field w 0 8)).write (2 * a.toNat + 1) (field w 8 8)).write (2 * a.toNat + 2)
      (field w 16 8) }

/-! ### Instruction classes -/

/-- The instruction may not be the target of REPEAT (R458, R573). -/
def excludedRepeatTarget : Instr → Bool
  | .call _ | .goto _ | .retlw _ _ _ | .ret | .retfie | .rcall _ | .bra _ | .btscInd _ _ | .btscFile _ _ => true
  | .doLit _ _ | .doReg _ _ | .repeatLit _ | .repeatReg _ => true
  | .disi _ | .ulnk | .lnk _ | .pwrsav _ | .reset | .movDLoad _ _ | .movDStore _ _ => true
  | _ => false

/-- The instruction may not be the last of a DO loop (R478, R574). RETURN, RETLW and RETFIE may (R470). DESIGN CHOICE
(log 51): so may RESET, which R478 and U11 do not name. -/
def excludedLoopEnd : Instr → Bool
  | .call _ | .goto _ | .rcall _ | .bra _ | .btscInd _ _ | .btscFile _ _ => true
  | .doLit _ _ | .doReg _ _ | .repeatLit _ | .repeatReg _ | .disi _ => true
  | _ => false

/-- The instruction is a REPEAT. -/
def isRepeat : Instr → Bool
  | .repeatLit _ | .repeatReg _ => true
  | _ => false

/-- An implemented program address holds an instruction of this class. -/
def State.holds (s : State) (a : PcAddr) (cls : Instr → Bool) : Bool :=
  match s.fetchAt a with
  | .instr i => cls i
  | _ => false

/-- The instruction right after the pc may not be the target of a REPEAT (R458). -/
def State.badTargetNext (s : State) : Bool :=
  decide (s.pc.toNat + 2 < 2 ^ 23) && s.holds (s.pc + 2) excludedRepeatTarget

/-- The instruction at the pc is the target of a REPEAT: RA is set, or a REPEAT stands right before it (R478). -/
def State.isRepeatTarget (s : State) : Bool := s.sr.ra || (decide (2 ≤ s.pc.toNat) && s.holds (s.pc - 2) isRepeat)

/-- The length of the active DO loop, in program words, is -2, -1 or 0 (R480). -/
def State.badLoopLength (s : State) : Bool := [0, 2, 4].contains (s.dostart - s.doend)

/-- The pc is the end address of an active DO loop (R470). -/
def State.atLoopEnd (s : State) : Bool := s.da && s.pc == s.doend

/-- The first and the last address of each DO loop under way that the machine knows: the active one, and from the second
level on the one whose registers the shadows hold (R465, log 25). -/
def State.loops (s : State) : List (PcAddr × PcAddr) :=
  if s.corcon.dl = 0 then []
  else if s.corcon.dl = 1 then [(s.dostart, s.doend)]
  else [(s.dostart, s.doend), (s.dostartShadow, s.doendShadow)]

/-- The address is the last of such a loop. -/
def State.endsLoop (s : State) (a : PcAddr) : Bool := s.loops.any fun l => l.2 == a

/-- The instruction at the pc is the last of such a loop: the end address is that of its first or of its second word
(R478, log 52). -/
def State.lastOfLoop (s : State) (i : Instr) : Bool := s.endsLoop s.pc || i.words == 2 && s.endsLoop (s.pc + 2)

/-- The refusals that depend on where the instruction stands: a REPEAT before an excluded target, or an excluded target
that is being repeated (R458, U13); at the end of a DO loop, an instruction that may not stand there (R478, R574), or a
loop of a length to avoid, which software has then made (R480, U11). A loop whose whole body is one two-word instruction
has fewer than two instructions and ends in a two-word one (log 52). -/
def contextRefusal (i : Instr) (s : State) : Option Refusal :=
  if s.sr.ra && excludedRepeatTarget i || isRepeat i && s.badTargetNext then some .repeatTarget
  else if s.lastOfLoop i && (excludedLoopEnd i || s.isRepeatTarget) then some .doLastInstruction
  else if s.atLoopEnd && s.badLoopLength then some .doLoopLength
  else none

/-! ### Cycles -/

/-- The cycle count of an instruction without skips, PSV reads and stalls (R585). -/
def baseCycles : Instr → Nat
  | .movDLoad _ _ | .movDStore _ _ | .bra _ | .rcall _ | .goto _ | .call _ | .doLit _ _ | .doReg _ _ => 2
  | .tblrdl _ _ _ => 2
  | .ret | .retlw _ _ _ | .retfie => 3
  | _ => 1

/-- The read-after-write stall before the instruction: a source read computed an address from a register that the
instruction before it wrote (R590, R591, log 22). -/
def State.stalls (t : State) : Bool := t.last.wrote &&& t.cur.srcEa != 0

/-- The cycle count of the step (R585): a taken skip adds the words skipped, a PSV read two, a stall one. -/
def stepCycles (i : Instr) (t : State) : Nat :=
  baseCycles i + t.cur.skip + (if t.cur.psv then 2 else 0) + (if t.stalls then 1 else 0)

/-- The suspended program that a return from an exception to `a` resumes, if something is held of it (log 35). -/
def State.resumed (t : State) (a : PcAddr) : Option Suspended :=
  t.held.find? fun h => !h.differs (t.readW 15) a

/-- What the instruction leaves for the rules about the one executed next. The returns force no stall by their pops,
RETLW one by the register it writes (R405, R406, R592); after RETFIE the interrupted program goes on (log 35). -/
def recentAfter (i : Instr) (t : State) : Recent :=
  match i with
  | .ret => { t.cur.recent with wrote := 0 }
  | .retfie => ((t.cur.jump.bind t.resumed).map Suspended.marks).getD { t.cur.recent with wrote := 0 }
  | .retlw _ _ d => { t.cur.recent with wrote := regBit d }
  | _ => t.cur.recent

/-- What is still held of interrupted programs after the instruction (log 35). -/
def heldAfter (i : Instr) (t : State) : List Suspended :=
  match i, t.cur.jump with
  | .retfie, some a => t.held.filter (Suspended.differs (t.readW 15) a)
  | _, _ => t.held

/-! ### The next pc -/

/-- The count of `edtPending` after an instruction (R474); the instruction that made the request does not count. -/
def State.advanceEdt (t : State) : State :=
  if t.cur.edt then t
  else
    { t with
      edtPending :=
        match t.edtPending with
        | none => none
        | some k => some (if k = 0 then 1 else 2) }

/-- The next instruction in program order (R31, R33). -/
def State.advance (t : State) (words : Nat) : Host.Outcome State Fault Refusal :=
  if t.pc.toNat + 2 * words < 2 ^ 23 then .next { t with pc := BitVec.ofNat 23 (t.pc.toNat + 2 * words) }
  else .fault .pcOverflow

/-- The REPEAT hold, for an instruction that began with RA set (R455). DESIGN CHOICE (log 45): one that raises a trap is
held too, so the entry stacks its own address and it executes again after the return, as R14 and R455 have it; R512 and
D12 speak of the address of the instruction that follows. -/
def State.holdRepeat (t : State) (words : Nat) : Host.Outcome State Fault Refusal :=
  if t.rcount = 0 then State.advance { t with sr := { t.sr with ra := false } } words
  else .next { t with rcount := t.rcount - 1, sr := { t.sr with ra := t.sr.ra && t.rcount - 1 != 0 } }

/-- A DO loop terminates (R470): the outer loop's registers come back at DL = 2, DCOUNT takes a free value at DL = 1
(log 24). -/
def State.leaveLoop (t : State) : State :=
  let u :=
    if t.corcon.dl = 2 then { t with dostart := t.dostartShadow, doend := t.doendShadow, dcount := t.dcountShadow }
    else if t.corcon.dl = 1 then { t with dcount := Config.free 16 t.free, free := t.free + 1 }
    else t
  { u with corcon := { u.corcon with dl := u.corcon.dl - 1 }, edtPending := none }

/-- The test at the end address of a DO loop (R470, R474). -/
def State.loopTest (t : State) (words : Nat) : Host.Outcome State Fault Refusal :=
  if t.dcount = 0 ∨ t.edtPending = some 2 then t.leaveLoop.advance words
  else .next { t with dcount := t.dcount - 1, pc := t.dostart }

/-- The choice of the next pc (R14, step 4): the instruction's own target, the REPEAT hold, the end-of-loop test, else
the next instruction. `raBefore` is RA as the instruction began. -/
def State.choosePc (t : State) (raBefore : Bool) (words : Nat) : Host.Outcome State Fault Refusal :=
  match t.cur.jump with
  | some a => .next { t with pc := a }
  | none =>
    if raBefore then t.holdRepeat words
    else if t.atLoopEnd then t.loopTest words
    else t.advance words

/-- The address of the instruction that stands after the one at `a` in a DO loop with this first and last address: the
first follows the last (log 25). -/
def nextInLoop (loop : PcAddr × PcAddr) (a : PcAddr) (words : Nat) : PcAddr :=
  if a = loop.2 then loop.1 else a + BitVec.ofNat 23 (2 * words)

/-- The last or the penultimate instruction of a loop under way, or of the active one as the instruction left it, wrote
DCOUNT, DOSTART, DOEND or DL (R472, log 25). -/
def loopRegsHazard (i : Instr) (s t : State) : Bool :=
  t.cur.loopRegs &&
    [s.pc, s.pc + BitVec.ofNat 23 (2 * i.words)].any fun a => s.endsLoop a || s.da && a == t.doend

/-- The instruction that stands before the penultimate one of a loop under way changed IPL (R478, R576, log 25). The
last instruction of a loop of two stands there as well, but not where it takes its own target, as RETFIE does (R470). -/
def iplHazard (i : Instr) (s t : State) : Bool :=
  t.cur.ipl &&
    s.loops.any fun l =>
      let next := nextInLoop l s.pc i.words
      !(s.pc == l.2 && t.cur.jump.isSome) && nextInLoop l next (firstWordLength (s.progWord next)) == l.2

/-- The end of a step (R14, steps 4 and 5): `s` is the state before the instruction, `t` the one its meaning gave. -/
def finish (i : Instr) (s t : State) : Host.Outcome State Fault Refusal :=
  if loopRegsHazard i s t || iplHazard i s t then .refused .doHazard
  else
    match t.advanceEdt.choosePc s.sr.ra i.words with
    | .fault f => .fault f
    | .refused r => .refused r
    | .next u =>
      .next
        { u with
          disicnt := BitVec.ofNat 14 (u.disicnt.toNat - stepCycles i t)
          last := recentAfter i t
          held := heldAfter i t
          cur := Scratch.empty }

/-- The step of a pc whose words are not implemented: no instruction executes, the illegal address trap becomes pending
(R120, R505, log 12). DESIGN CHOICE (log 55): what the instruction before it did is forgotten by the rules about the one
after it. -/
def missingInstruction (words : Nat) (s : State) : Host.Outcome State Fault Refusal :=
  State.advance { s.pend .illegal with last := Recent.empty } words

/-! ### Acceptance of exceptions -/

/-- The device has this source of traps: the four named ones, and the first of the others (R8, log 44). -/
def trapExists (d : Device) : Trap → Bool
  | .other n => decide (4 + n.val < d.trapSources)
  | _ => true

/-- Every trap, in the order that decides between traps of one level which `tieOrder` does not name. -/
def allTraps : List Trap := [.illegal, .address, .stack, .arithmetic, .other 0, .other 1, .other 2, .other 3]

/-- The pending requests with their levels, a tie being decided in favour of the one that stands first (R510, R521,
log 14). -/
def State.requests (s : State) : List (Exc × Nat) :=
  (((s.dev.tieOrder ++ allTraps).filter fun t => s.pendingTraps.has t && trapExists s.dev t).map fun t =>
    (Exc.trap t, 8 + (trapLevel s.dev t).toNat)) ++
    match s.irq with
    | some q => if q.source.val < s.dev.interruptSources then [(Exc.irq q.source, q.priority.toNat)] else []
    | none => []

/-- Of two requests the one of higher level, else the first. -/
def higher (best : Option (Exc × Nat)) (r : Exc × Nat) : Option (Exc × Nat) :=
  match best with
  | none => some r
  | some b => if b.2 < r.2 then some r else some b

/-- The pending request of highest level (R510). -/
def State.candidate (s : State) : Option (Exc × Nat) := s.requests.foldl higher none

/-- DISICNT holds the request off: an interrupt of priority 1 to 6 while DISICNT is not 0 (R530). -/
def State.heldOff (s : State) (r : Exc × Nat) : Bool :=
  match r.1 with
  | .trap _ => false
  | .irq _ => decide (r.2 ≤ 6) && s.disicnt != 0

/-- The exception that is accepted now, if there is one (R510). -/
def State.accepted (s : State) : Option Exc :=
  match s.candidate with
  | none => none
  | some r => if s.cpuLevel < r.2 ∧ s.heldOff r = false then some r.1 else none

end Sys2Proof.Machine
end

