-- ==== Sys2Proof/Machine/Step.lean ====
section
/-! DEFINITION. One step of the machine (spec/00_scope.md R14), and the placing of an instruction where the next step
fetches it. -/

namespace Sys2Proof.Machine

/-- A step that executes an instruction (R14, steps 3 to 5). -/
def stepInstr (s : State) : Host.Outcome State Fault Refusal :=
  match s.fetch with
  | .missing words => missingInstruction words s
  | .bad why => .refused (.undecodable why)
  | .instr i =>
    match contextRefusal i s with
    | some r => .refused r
    | none =>
      match exec i s.notePrefetch with
      | .next t => finish i s t
      | .fault f => .fault f
      | .refused r => .refused r

/-- One step (R14): a requested device Reset, else the entry of an accepted exception, else one instruction. -/
def step (s : State) : Host.Outcome State Fault Refusal :=
  if s.resetReq then .next { deviceReset s with cur := Scratch.empty }
  else
    match s.accepted with
    | some e => outcome (enterException e) s
    | none => stepInstr s

/-- The state with an instruction stored at the pc, its bits numbered as `tableBytes` says (log 3). -/
def State.withFetchWord (s : State) (nbits w : Nat) : State :=
  (s.setProgWord s.pc (BitVec.ofNat 24 (w % 2 ^ nbits))).setProgWord (s.pc + 2)
    (BitVec.ofNat 24 (w % 2 ^ nbits / 2 ^ 24))

end Sys2Proof.Machine
end

