-- ==== Sys2Proof/Safety.lean ====
section
/-! DEFINITION. The terms that claims about the machine use: the invariant of the states, when an operand can be read or
written and what that does, and what stays as it was. -/

namespace Sys2Proof.Machine

/-! ### The invariant -/

/-- Bit 0 of a word or of a program address is 0. -/
def evenBits {n : Nat} (v : BitVec n) : Bool := !v.getLsbD 0

/-- What holds of every state between two steps: the fixed bits of R24, R30, R45, R50 to R55, modulo and bit-reversed
addressing off (R5, R145), the memories in canonical form with data RAM inside its range (R105), and the model fields
as they are between instructions. -/
structure State.Inv (s : State) : Prop where
  /-- W15[0] is 0 (R24). -/
  w15 : evenBits (s.readW 15) = true
  /-- SPLIM[0] is 0 (R45). -/
  splim : evenBits s.splim = true
  /-- PC[0] is 0 (R30). -/
  pc : evenBits s.pc = true
  /-- Bit 0 of DOSTART, DOEND and their shadows is 0 (R50, R51). -/
  loopRegs : (evenBits s.dostart && evenBits s.doend && evenBits s.dostartShadow && evenBits s.doendShadow) = true
  /-- MODCON[15:12] is 0: unimplemented bits, and modulo addressing off (R52, R145). -/
  modcon : s.modcon.extractLsb' 12 4 = 0
  /-- XBREV.BREN is 0 (R55, R145). -/
  xbrev : s.xbrev.getLsbD 15 = false
  /-- Bit 0 of XMODSRT and YMODSRT is 0, that of XMODEND and YMODEND is 1 (R53, R54). -/
  modulo : (evenBits s.xmodsrt && evenBits s.ymodsrt && s.xmodend.getLsbD 0 && s.ymodend.getLsbD 0) = true
  /-- Data RAM is in canonical form. -/
  dataForm : s.data.wf = true
  /-- Data RAM lists only addresses of 0x0800 to RAM_TOP (R105). -/
  dataRange : s.data.within ramStart s.dev.ramTop.toNat = true
  /-- Program memory is in canonical form. -/
  progForm : s.prog.wf = true
  /-- A divide under way has made 1 to 17 executions (R386). -/
  div : ∀ p, s.div = some p → 1 ≤ p.k ∧ p.k ≤ 17
  /-- An early termination is pending only while a DO loop is active (R474). -/
  edt : s.edtPending ≠ none → s.corcon.dl ≠ 0
  /-- No instruction is under way. -/
  idle : s.cur = Scratch.empty

/-! ### Reading and writing data space -/

/-- `MemRead` at this address gives a value that the state determines: the access is aligned and the address is that of a
CPU register other than PCL and PCH, of implemented program memory in the PSV window, or of RAM (R110). -/
def State.readable (s : State) (byte : Bool) (a : Word) : Bool :=
  (byte || !a.getLsbD 0) &&
    match sfrAt s.dev a with
    | some r => (s.sfrView r).isSome && !((r == .doendl || r == .doendh) && s.last.doend)
    | none =>
      if s.corcon.psv && a.getLsbD 15 then s.progImplemented (s.psvAddress a) else s.inRam a (if byte then 1 else 2)

/-- That value (R110, R112, R121). -/
def State.readValue (s : State) (byte : Bool) (a : Word) : Word :=
  match sfrAt s.dev a with
  | some r => laneOrWord byte a ((s.sfrView r).getD 0)
  | none =>
    if s.corcon.psv && a.getLsbD 15 then laneOrWord byte a ((s.progWord (s.psvAddress a)).extractLsb' 0 16)
    else s.load byte a

/-- The state after the read: a read through the PSV window is noted for the cycle count (R585). -/
def State.afterRead (s : State) (a : Word) : State :=
  if (sfrAt s.dev a).isNone && s.corcon.psv && a.getLsbD 15 then { s with cur := { s.cur with psv := true } } else s

/-- The address is one of implemented RAM that a write of this size reaches (R111). -/
def State.writable (s : State) (byte : Bool) (a : Word) : Bool :=
  (byte || !a.getLsbD 0) && s.inRam a (if byte then 1 else 2) && !(s.corcon.psv && a.getLsbD 15)

/-! ### Operands -/

/-- The effective address of an indirect operand (R200); `[--W15]` and `[++W15]` have bit 0 forced to 0 (R24). -/
def State.effective (s : State) (b : RegNum) (step : Word) (o : Operand) : Word :=
  let ea := o.mode.ea (s.readW o.reg) (s.readW b) step
  if o.mode.isPre && o.reg == 15 then evenWord ea else ea

/-- The effective address can be formed: the pointer is initialised, and the stack check passes where W15 takes part
(R27, R506 to R508). -/
def State.addressable (s : State) (b : RegNum) (step : Word) (o : Operand) : Bool :=
  s.initialised o.reg &&
    !(o.usesStack b && s.stackBad (s.effective b step o) (o.mode.wraps (s.readW o.reg) (s.readW b) step))

/-- The state after the pointer modification of an operand (R200). -/
def State.modified (s : State) (step : Word) (o : Operand) : State :=
  s.movePointer o.reg (o.mode.newPointer (s.readW o.reg) step)

/-- The state with the registers marked from which a source read computes its address (R590). -/
def State.sourceMarked (s : State) (b : RegNum) (o : Operand) : State :=
  if o.mode = .offset then (s.markSrcEa o.reg).markSrcEa b else s.markSrcEa o.reg

/-- The state as an indirect source operand's memory read finds it. -/
def State.beforeSourceRead (s : State) (b : RegNum) (step : Word) (o : Operand) : State :=
  (s.sourceMarked b o).modified step o

/-- The source operand can be read (R200, R202, R570). -/
def State.sourceReady (s : State) (b : RegNum) (byte : Bool) (o : Operand) : Bool :=
  o.isDirect ||
    (s.addressable b (stepOf byte) o && !(o.usesStack b && s.last.splim) &&
      (s.beforeSourceRead b (stepOf byte) o).readable byte (s.effective b (stepOf byte) o))

/-- The value of a source operand (R200). -/
def State.sourceValue (s : State) (b : RegNum) (byte : Bool) (o : Operand) : Word :=
  if o.isDirect then sized byte (s.readW o.reg)
  else (s.beforeSourceRead b (stepOf byte) o).readValue byte (s.effective b (stepOf byte) o)

/-- The state after a source operand has been read. -/
def State.afterSource (s : State) (b : RegNum) (byte : Bool) (o : Operand) : State :=
  if o.isDirect then s
  else (s.beforeSourceRead b (stepOf byte) o).afterRead (s.effective b (stepOf byte) o)

/-- The destination operand can be written: a register, or an address of RAM (R200, R202). What a write to a CPU
register's address does is said by other claims. -/
def State.destReady (s : State) (b : RegNum) (byte : Bool) (o : Operand) : Bool :=
  o.isDirect ||
    (s.addressable b (stepOf byte) o && s.writable byte (s.effective b (stepOf byte) o))

/-- Write a register as the operand size says (R25). -/
def State.putReg (s : State) (byte : Bool) (r : RegNum) (v : Word) : State :=
  if byte then s.putByte r (v.extractLsb' 0 8) else s.putWord r v

/-- The state after a destination operand has been written (R200). -/
def State.afterDest (s : State) (b : RegNum) (byte : Bool) (o : Operand) (v : Word) : State :=
  if o.isDirect then s.putReg byte o.reg v
  else (s.modified (stepOf byte) o).store byte (s.effective b (stepOf byte) o) v

/-- The file register can be written: an address of RAM. -/
def State.fileWritable (s : State) (byte toFile : Bool) (f : BitVec 13) : Bool :=
  !toFile || s.writable byte (fileAddress f)

/-- The state after a file register instruction has written the file register or WREG (R256). -/
def State.afterFile (s : State) (byte toFile : Bool) (f : BitVec 13) (v : Word) : State :=
  if toFile then s.store byte (fileAddress f) v else s.putReg byte 0 v

/-- The result and flags of an addition of the operand size (R250, R251). -/
def addResult (byte : Bool) (a b : Word) : Word :=
  if byte then (addFlags (a.extractLsb' 0 8) (b.extractLsb' 0 8) false).value.setWidth 16 else (addFlags a b false).value

/-- SR after an addition of the operand size (R250, R251). -/
def addSr (r : StatusReg) (byte : Bool) (a b : Word) : StatusReg :=
  if byte then r.withAdd (addFlags (a.extractLsb' 0 8) (b.extractLsb' 0 8) false) else r.withAdd (addFlags a b false)

/-- The result of a one-bit shift of the operand size (R265 to R267). -/
def shiftResult (k : ShiftKind) (byte : Bool) (a : Word) : Word :=
  if byte then (shiftOne k (a.extractLsb' 0 8)).1.setWidth 16 else (shiftOne k a).1

/-- SR after a one-bit shift of the operand size (R265 to R267). -/
def shiftSr (r : StatusReg) (k : ShiftKind) (byte : Bool) (a : Word) : StatusReg :=
  if byte then
    r.withCNZ (shiftOne k (a.extractLsb' 0 8)).2 (shiftOne k (a.extractLsb' 0 8)).1.msb
      ((shiftOne k (a.extractLsb' 0 8)).1 == 0)
  else r.withCNZ (shiftOne k a).2 (shiftOne k a).1.msb ((shiftOne k a).1 == 0)

/-- The state with another SR. -/
def State.withSr (s : State) (r : StatusReg) : State := { s with sr := r }

/-! ### The stack -/

/-- A push passes the stack check and reaches RAM (R130, R506, R507). -/
def State.pushReady (s : State) : Bool := !s.stackBad (s.readW 15) false && s.writable false (s.readW 15)

/-- The state after `Push(v)` (R130). -/
def State.pushed (s : State) (v : Word) : State := (s.store false (s.readW 15) v).putWord 15 (s.readW 15 + 2)

/-- The state as a pop's memory read finds it (R131). -/
def State.beforePopRead (s : State) : State := (s.markSrcEa 15).putWord 15 (s.readW 15 - 2)

/-- A pop passes the stack check and its word can be read (R131, R507, R570). -/
def State.popReady (s : State) : Bool :=
  !s.last.splim && !s.stackBad (s.beforePopRead.readW 15) false &&
    s.beforePopRead.readable false (s.beforePopRead.readW 15)

/-- The word that `Pop()` gives (R131). -/
def State.popValue (s : State) : Word := s.beforePopRead.readValue false (s.beforePopRead.readW 15)

/-- The state after `Pop()` (R131). -/
def State.popped (s : State) : State := s.beforePopRead.afterRead (s.beforePopRead.readW 15)

/-! ### What stays -/

/-- Everything is as it was but the W registers, SR, data RAM, the free-value counter and the model's record of the
instruction under way. -/
structure SameRest (s t : State) : Prop where
  pc : t.pc = s.pc
  corcon : t.corcon = s.corcon
  stackLimit : t.splim = s.splim ∧ t.splimArmed = s.splimArmed
  pages : t.tblpag = s.tblpag ∧ t.psvpag = s.psvpag
  counts : t.rcount = s.rcount ∧ t.dcount = s.dcount ∧ t.disicnt = s.disicnt
  loop : t.dostart = s.dostart ∧ t.doend = s.doend
  loopShadows : t.dostartShadow = s.dostartShadow ∧ t.doendShadow = s.doendShadow ∧ t.dcountShadow = s.dcountShadow
  modulo : t.modcon = s.modcon ∧ t.xmodsrt = s.xmodsrt ∧ t.xmodend = s.xmodend ∧ t.ymodsrt = s.ymodsrt ∧
    t.ymodend = s.ymodend ∧ t.xbrev = s.xbrev
  accumulators : t.acca = s.acca ∧ t.accb = s.accb
  shadows : t.wShadow = s.wShadow ∧ t.srShadow = s.srShadow
  edtPending : t.edtPending = s.edtPending
  div : t.div = s.div
  traps : t.pendingTraps = s.pendingTraps ∧ t.intcon1 = s.intcon1
  prog : t.prog = s.prog
  inputs : t.irq = s.irq ∧ t.resetReq = s.resetReq
  dev : t.dev = s.dev

/-- Every W register outside the list keeps its value and its initialisation bit. -/
def RegsKept (s t : State) (except : List RegNum) : Prop :=
  ∀ r, r ∉ except → t.readW r = s.readW r ∧ t.initialised r = s.initialised r

/-- Every byte of data RAM outside the `n` bytes from `a` on reads as before. -/
def RamKeptOutside (s t : State) (a n : Nat) : Prop :=
  ∀ k, ¬ (a ≤ k ∧ k < a + n) → t.data.read k = s.data.read k

/-- Every byte of data RAM reads as before. -/
def RamKept (s t : State) : Prop := ∀ k, t.data.read k = s.data.read k

/-- The bits of SR that no MCU instruction writes as flags are as they were: OA, OB, SA, SB, IPL, RA (R35). -/
def SameSrRest (s t : State) : Prop :=
  t.sr.oa = s.sr.oa ∧ t.sr.ob = s.sr.ob ∧ t.sr.sa = s.sr.sa ∧ t.sr.sb = s.sr.sb ∧ t.sr.ipl = s.sr.ipl ∧ t.sr.ra = s.sr.ra

/-- The registers that an operand form changes (R200). -/
def operandChanged (o : Operand) : List RegNum := if o.modifies then [o.reg] else []

/-- The registers that a destination operand changes (R200). -/
def destChanged (o : Operand) : List RegNum := if o.modifies || o.isDirect then [o.reg] else []

/-! ### The end of a step -/

/-- The count of a pending early termination goes up by one, to 2 at most, but not in the instruction that requested it
(R474). -/
def EdtCounted (t u : State) : Prop :=
  (t.edtPending = none → u.edtPending = none) ∧ (t.cur.edt = true → u.edtPending = t.edtPending) ∧
  (t.cur.edt = false → t.edtPending = some 0 → u.edtPending = some 1) ∧
  (t.cur.edt = false → t.edtPending = some 1 ∨ t.edtPending = some 2 → u.edtPending = some 2)

/-- What the instruction leaves for the rules about the one executed next: what it did, but the returns force no stall
by their pops, and RETLW may force one by the register it writes (R405 to R407, R592); after RETFIE to a program of which
something is held, the marks of that program (R570, R575). -/
structure MarksLeft (i : Instr) (t u : State) : Prop where
  other : i ≠ .ret → i ≠ .retfie → (∀ byte lit d, i ≠ .retlw byte lit d) → u.last = t.cur.recent
  ret : i = .ret → u.last = { t.cur.recent with wrote := 0 }
  retlw : ∀ byte lit d, i = .retlw byte lit d → u.last = { t.cur.recent with wrote := 1#16 <<< d.toNat }
  retfie : i = .retfie →
    (∀ a ∈ t.cur.jump, ∀ h ∈ t.held, h.frame = t.readW 15 → h.pc ≠ a) → u.last = { t.cur.recent with wrote := 0 }
  resumed : i = .retfie → ∀ a h, t.cur.jump = some a →
    t.held.find? (fun h => h.frame == t.readW 15 && h.pc == a) = some h → u.last = h.marks

/-- The end of a step, whatever becomes of the pc: what the instruction has done stays, but for RA, RCOUNT, CORCON, the
registers of the DO loops and the count of an early termination, of which the claims speak one by one; DISICNT goes down
by the cycle count and stops at 0 (R530). -/
structure StepEnds (i : Instr) (t u : State) : Prop where
  rest : SameRest t { u with
    pc := t.pc, corcon := t.corcon, rcount := t.rcount, dcount := t.dcount, dostart := t.dostart, doend := t.doend,
    disicnt := t.disicnt, edtPending := t.edtPending }
  registers : u.w = t.w ∧ u.wInit = t.wInit
  status : { u.sr with ra := t.sr.ra } = t.sr
  memory : u.data = t.data
  countdown : u.disicnt.toNat = t.disicnt.toNat - stepCycles i t
  idle : u.cur = Scratch.empty
  marks : MarksLeft i t u

/-- The loops go on as they were but for the count of an early termination (R474). -/
structure LoopsKept (t u : State) : Prop where
  corcon : u.corcon = t.corcon
  registers : u.dcount = t.dcount ∧ u.dostart = t.dostart ∧ u.doend = t.doend
  early : EdtCounted t u

/-! ### Reset -/

/-- The reset values that the spec gives (R63, R560), but for those of the W registers. -/
structure State.AtReset (s : State) : Prop where
  pc : s.pc = 0
  wInit : ∀ r, r ≠ 15 → s.initialised r = false
  stackLimit : s.splim = 0 ∧ s.splimArmed = false
  status : s.sr.oa = false ∧ s.sr.ob = false ∧ s.sr.sa = false ∧ s.sr.sb = false ∧ s.sr.dc = false ∧ s.sr.ipl = 0 ∧
    s.sr.ra = false
  corcon : s.corcon.word = 0x0020
  pages : s.tblpag = 0 ∧ s.psvpag = 0
  fixedBits : evenBits s.dostart = true ∧ evenBits s.doend = true ∧ evenBits s.xmodsrt = true ∧
    evenBits s.ymodsrt = true ∧ s.xmodend.getLsbD 0 = true ∧ s.ymodend.getLsbD 0 = true
  modulo : s.modcon = 0 ∧ s.xbrev = 0
  disicnt : s.disicnt = 0
  edtPending : s.edtPending = none
  div : s.div = none
  traps : ∀ t, s.pendingTraps.has t = false
  /-- The ten bits of INTCON1 are 0 (R532). -/
  intcon1 : s.intcon1.nstdis = false ∧ s.intcon1.ovaerr = false ∧ s.intcon1.ovberr = false ∧
    s.intcon1.covaerr = false ∧ s.intcon1.covberr = false ∧ s.intcon1.ovate = false ∧ s.intcon1.ovbte = false ∧
    s.intcon1.covte = false ∧ s.intcon1.sftacerr = false ∧ s.intcon1.div0err = false

/-! ### The DSP engine -/

/-- OA or OB. -/
def StatusReg.overflowOf (r : StatusReg) : Acc → Bool
  | .accA => r.oa
  | .accB => r.ob

/-- SA or SB. -/
def StatusReg.saturatedOf (r : StatusReg) : Acc → Bool
  | .accA => r.sa
  | .accB => r.sb

/-- The product of two operands as an integer: signed, or unsigned with US set; doubled in fractional mode (R311,
R312). -/
def CoreControl.product (c : CoreControl) (x y : Word) : Int :=
  let p : Int := if c.us then (x.toNat : Int) * (y.toNat : Int) else x.toInt * y.toInt
  if c.ifm then p else 2 * p

/-- The address of a prefetch (R339). -/
def State.prefetchEa (s : State) (ySpace : Bool) (p : Prefetch) : Word :=
  match p with
  | .none => 0
  | .pointer second _ => s.readW (prefetchPointer ySpace second)
  | .indexed => s.readW (prefetchPointer ySpace true) + s.readW 12

/-- The pointer of a prefetch is initialised. -/
def State.prefetchPointerReady (s : State) (ySpace : Bool) (p : Prefetch) : Bool :=
  match p with
  | .none => true
  | .pointer second _ => s.initialised (prefetchPointer ySpace second)
  | .indexed => s.initialised (prefetchPointer ySpace true)

/-- A prefetch can be made: its pointer is initialised, its address lies in its own space and can be read (R339, U7). -/
def State.prefetchReady (s : State) (ySpace : Bool) (p : Prefetch) : Bool :=
  !hasPrefetch p ||
    (s.prefetchPointerReady ySpace p && (s.inY (s.prefetchEa ySpace p) == ySpace) &&
      s.readable false (s.prefetchEa ySpace p))

/-- By how much a prefetch moves a register (R339). -/
def prefetchMoves (ySpace : Bool) (p : Prefetch) (r : RegNum) : Word :=
  match p with
  | .pointer second step => if r = prefetchPointer ySpace second then stepAmount step else 0
  | .none => 0
  | .indexed => 0

/-- What an instruction does whose prefetch cannot be made, the registers and memory staying as they were: an
uninitialised pointer resets the device (R27); a word at an odd address faults, or makes AddressError pending on a device
whose parameter says so (R109, R504); an address in the other data space faults (R339, U7). -/
def PrefetchStops (i : Instr) (s : State) (ySpace : Bool) (p : Prefetch) : Prop :=
  hasPrefetch p = true →
  (s.prefetchPointerReady ySpace p = false → exec i s = .next (deviceReset s)) ∧
  ∀ ea, s.prefetchPointerReady ySpace p = true → s.prefetchEa ySpace p = ea →
    (ea.getLsbD 0 = true → s.dev.misalignedTraps = false → exec i s = .fault .addressError) ∧
    (ea.getLsbD 0 = true → s.dev.misalignedTraps = true →
      ∃ t, exec i s = .next t ∧ t.pendingTraps = s.pendingTraps.put .address true ∧
        SameRest s { t with pendingTraps := s.pendingTraps } ∧ t.sr = s.sr ∧ RegsKept s t [] ∧ t.data = s.data) ∧
    (ea.getLsbD 0 = false → s.inY ea ≠ ySpace →
      exec i s = .fault (if ySpace then .yPrefetchOutsideY else .xPrefetchInY))

/-- A write-back can be made (R338). -/
def State.writeBackReady (s : State) (wb : WriteBack) : Bool :=
  match wb with
  | .none => true
  | .w13 => true
  | .w13Inc => s.initialised 13 && s.writable false (s.readW 13)

/-- What a register holds after an instruction of the MAC class that prefetches `dx` and `dy` and writes back `v`
(R338, R339). -/
def State.dspReg (s : State) (xd yd : BitVec 2) (x y : Prefetch) (wb : WriteBack) (dx dy v : Word) (r : RegNum) : Word :=
  if hasPrefetch x && r == operandReg xd then dx
  else if hasPrefetch y && r == operandReg yd then dy
  else if r = 13 then
    match wb with
    | .w13 => v
    | .w13Inc => s.readW 13 + 2
    | .none => s.readW 13
  else s.readW r + prefetchMoves false x r + prefetchMoves true y r

/-! ### Divides -/

/-- The divisor and the quotient with its remainder of a divide instruction; none for another instruction and for a
dividend that is no register pair (R380 to R385). -/
def divideOf (i : Instr) (s : State) : Option (Word × Quotient) :=
  match i with
  | .divSW m n => some (s.readW n, signedQuotient (s.readW m).toInt (s.readW n).toInt)
  | .divSD hi lo n =>
    if evenBits lo && hi == lo + 1 then
      some (s.readW n, signedQuotient (s.readW hi ++ s.readW lo).toInt (s.readW n).toInt)
    else none
  | .divUW m n => some (s.readW n, unsignedQuotient (s.readW m).toNat (s.readW n).toNat)
  | .divUD hi lo n =>
    if evenBits lo && hi == lo + 1 then
      some (s.readW n, unsignedQuotient (s.readW hi ++ s.readW lo).toNat (s.readW n).toNat)
    else none
  | .divF m n => some (s.readW n, fractionalQuotient (s.readW m).toInt (s.readW n).toInt)
  | _ => none

/-- The state that differs from `s` only in what a divide writes: W0, W1, N, OV, Z, C and its progress (R386). -/
def DivideKept (s t : State) : Prop :=
  SameRest s { t with div := s.div } ∧ RegsKept s t [0, 1] ∧ t.data = s.data ∧ SameSrRest s t ∧ t.sr.dc = s.sr.dc

end Sys2Proof.Machine

namespace Sys2Proof

/-! ### CPU registers in data space -/

/-- What a CPU register reads as after a software write of `v` (R24, R45 to R58); none where the write is refused
(R5, R32) and for SR and CORCON, whose own claims say it. -/
def Sfr.stored (x : Sfr) (v : Word) : Option Word :=
  match x with
  | .w n => some (if n = 15 then Machine.evenWord v else v)
  | .splim | .dostartl | .doendl | .xmodsrt | .ymodsrt => some (Machine.evenWord v)
  | .accL _ | .accH _ | .dcount => some v
  | .accU _ => some ((v.extractLsb' 0 8).signExtend 16)
  | .tblpag | .psvpag => some (v &&& 0x00FF)
  | .rcount | .disicnt => some (v &&& 0x3FFF)
  | .dostarth | .doendh => some (v &&& 0x007F)
  | .modcon => if v.getLsbD 15 || v.getLsbD 14 then none else some (v &&& 0x0FFF)
  | .xmodend | .ymodend => some (v ||| 1)
  | .xbrev => if v.getLsbD 15 then none else some v
  | .pcl | .pch | .sr | .corcon => none

/-! ### Classes of instructions -/

/-- The instructions that may not be the target of REPEAT (R458): program flow control with the skips, REPEAT, DO, DISI,
ULNK, LNK, PWRSAV, RESET and MOV.D. -/
def Instr.NotRepeatable : Instr → Prop
  | .call _ | .goto _ | .rcall _ | .bra _ | .ret | .retfie | .retlw _ _ _ | .btscFile _ _ | .btscInd _ _ => True
  | .repeatLit _ | .repeatReg _ | .doLit _ _ | .doReg _ _ | .disi _ | .ulnk | .lnk _ | .pwrsav _ | .reset => True
  | .movDLoad _ _ | .movDStore _ _ => True
  | _ => False

/-- The instructions that may not be the last of a DO loop (R478): flow control but for the returns (R470), skips,
REPEAT, DO, DISI and what occupies two words. -/
def Instr.NotLoopEnd : Instr → Prop
  | .call _ | .goto _ | .rcall _ | .bra _ | .btscFile _ _ | .btscInd _ _ => True
  | .repeatLit _ | .repeatReg _ | .doLit _ _ | .doReg _ _ | .disi _ => True
  | _ => False

/-- The cycles of an instruction that skips nothing, stalls for nothing and reads nothing through the PSV window (R585):
three for the returns; two for MOV.D, the relative branches, table reads and what occupies two words; else one. -/
def Instr.cycles : Instr → Nat
  | .ret | .retfie | .retlw _ _ _ => 3
  | .movDLoad _ _ | .movDStore _ _ | .bra _ | .rcall _ | .tblrdl _ _ _ => 2
  | .goto _ | .call _ | .doLit _ _ | .doReg _ _ => 2
  | _ => 1

end Sys2Proof
end

