-- ==== Sys2Proof/Certificates/Slice0/Obligations.lean ====
section
/-! DEFINITION. The statements for the provers. Where a statement has hypotheses, a theorem `witness_<name>` of
Sys2Proof/Tests/Slice0.lean shows a state and operands that meet them. -/

open Sys2Proof Sys2Proof.Machine

/-! ### Encoding and fetch -/

/-- Decoding an encoded instruction gives it back, with the bytes after it (R170, R159, R151). The patterns are
recalled ones (PRESUMED, log 1), the codes of the DSP fields the model's (log 27). -/
def Obligations.DecodeEncode : Prop :=
  ∀ (i : Instr) (rest : List Byte), i.wellFormed = true → decode (encodeBytes i ++ rest) = .ok (i, rest)

/-- The decoder gives only well-formed instructions, and takes three bytes for each of their words (R151, R170). The
patterns are recalled ones (PRESUMED, log 1), the layout of the bytes the model's (log 3). -/
def Obligations.DecodeWellFormed : Prop :=
  ∀ (bs rest : List Byte) (i : Instr), decode bs = .ok (i, rest) →
    i.wellFormed = true ∧ bs.length = 3 * i.words + rest.length

/-- Words written out by hand from the patterns of R170 decode to their instructions. The patterns are recalled ones
(PRESUMED, log 1). -/
def Obligations.HandWordsDecode : Prop :=
  decodeTableWord 24 0x000000 = some .nop ∧
  decodeTableWord 48 0x000001022344 = some (.call 0x012344) ∧
  decodeTableWord 24 0x255AA0 = some (.movLit16 0x55AA 0) ∧
  decodeTableWord 24 0x781901 = some (.mov 0 false ⟨.postInc, 2⟩ ⟨.direct, 1⟩) ∧
  decodeTableWord 24 0x781F81 = some (.push 1) ∧
  decodeTableWord 24 0x400294 = some (.addReg 0 false ⟨.direct, 5⟩ ⟨.indirect, 4⟩) ∧
  decodeTableWord 24 0xD80282 = some (.divSW 5 2) ∧
  decodeTableWord 24 0x090011 = some (.repeatLit 17)

/-- What `withFetchWord` places at the pc is what the next step fetches (R120, log 3). The layout of program memory is
the model's (DESIGN CHOICE, log 3). -/
def Obligations.WithFetchWordFetched : Prop :=
  ∀ (s : State) (nbits w : Nat), s.prog.wf = true →
    (s.withFetchWord nbits w).bytesAt s.pc = tableBytes nbits w ∧
    ∀ i, decodeTableWord nbits w = some i → s.pc.toNat + 2 ≤ s.dev.progTop.toNat →
      (s.withFetchWord nbits w).fetch = .instr i

/-- Where the bytes at the pc decode to an instruction whose words are implemented, no reset is requested and no
exception is accepted, the step is the refusal that the place of the instruction calls for (which it is, RepeatHolds
and DoLoopTest say), or else the meaning of that instruction, followed by `finish`; the note of the prefetch changes
nothing where the two words after the pc are implemented (R14, R505). The treatment of the prefetch is the model's
(log 12). -/
def Obligations.StepRunsDecoded : Prop :=
  ∀ (s : State) (i : Instr) (rest : List Byte), s.resetReq = false → s.accepted = none →
    decode (s.bytesAt s.pc) = .ok (i, rest) → s.pc.toNat + 2 * (i.words - 1) ≤ s.dev.progTop.toNat →
    (∀ r, contextRefusal i s = some r → step s = .refused r) ∧
    (contextRefusal i s = none →
      (∀ t, exec i s.notePrefetch = .next t → step s = finish i s t) ∧
      (∀ f, exec i s.notePrefetch = .fault f → step s = .fault f) ∧
      (∀ r, exec i s.notePrefetch = .refused r → step s = .refused r)) ∧
    (s.pc.toNat + 4 ≤ s.dev.progTop.toNat → s.notePrefetch = s)

/-! ### Reset and the invariant -/

/-- W0 to W14 are 0 and W15 is 0x0800 after every reset: in `State.reset` and after a device Reset (R28). -/
def Obligations.ResetWorkingRegisters : Prop :=
  ∀ (s : State) (r : RegNum),
    State.reset.readW r = (if r = 15 then 0x0800 else 0) ∧ (deviceReset s).readW r = (if r = 15 then 0x0800 else 0)

/-- The other reset values that the spec gives (R63, R560), each named: among them the ten INTCON1 bits at 0 (R532),
and both accumulators at 0 (log 6, DEDUCED). A device whose parameter RESET_SR_LOW6 is `table` (R38) is left out; that
IPL and RA are 0 on the others is decision D8. R63 marks the INTCON1 bits as general knowledge and the early
termination as a decision (log 38). -/
def Obligations.ResetOtherState : Prop :=
  State.reset.AtReset ∧ State.reset.acca = 0 ∧ State.reset.accb = 0 ∧ State.reset.accepted = none ∧
  ∀ s : State, s.dev.resetSrLow6Table = false →
    (deviceReset s).AtReset ∧ (deviceReset s).acca = 0 ∧ (deviceReset s).accb = 0

/-- `State.reset` satisfies the invariant. It rests on reset values that the model names where the spec gives none
(DESIGN CHOICE, log 5) and on the model's own fields (log 35). -/
def Obligations.InvAtReset : Prop := State.reset.Inv

/-- Every step from every state that satisfies the invariant keeps it. The canonical form of the memories and the
model fields are the model's (log 3, log 4, log 35). -/
def Obligations.InvKept : Prop := ∀ s t : State, s.Inv → step s = .next t → t.Inv

/-- RESET and a requested device Reset give the reset state (R432, R14). The step of an instruction that resets the
device, RESET or one that uses an uninitialised pointer (R27), leaves that state and goes on at pc 0 (R432, R562).
That program memory and the device stay is the model's choice (log 7), that an uninitialised pointer goes on from the
reset state log 10. R432 marks the effect of RESET as its own inference, R562 the pc as a decision (log 38). R432
marks the effect of RESET as its own inference (log 38). -/
def Obligations.DeviceReset : Prop :=
  ∀ s : State,
    exec .reset s = .next (deviceReset s) ∧
    (s.resetReq = true → step s = .next { deviceReset s with cur := Scratch.empty }) ∧
    (deviceReset s).cur.jump = some 0 ∧ (deviceReset s).pc = 0 ∧
    (∀ i : Instr, s.resetReq = false → s.accepted = none → s.fetch = .instr i → contextRefusal i s = none →
      i = .reset ∨ (∀ byte lit d, i ≠ .retlw byte lit d) ∧ exec i s.notePrefetch = .next (deviceReset s) →
      step s = .next { deviceReset s with cur := Scratch.empty }) ∧
    (deviceReset s).prog = s.prog ∧ (deviceReset s).dev = s.dev ∧ (deviceReset s).data.wf = true

/-! ### Operands and MOV -/

/-- What a source operand of MOV does where it cannot be read, and a destination operand where it cannot be written:
an uninitialised pointer resets the device (R27, log 10); a word access at an odd address faults, or makes
AddressError pending on a device whose parameter says so (R109, R504, D3, log 11), the pointer then keeping its new
value (DESIGN CHOICE, log 48); an unimplemented address faults (R107, R114), or is refused from 0x0800 on where the
device has an external bus (R105, log 8); a write into the PSV window faults (U4). The forms `[Wn--]`, `[++Wn]` and
`[Wn+Wb]` are PRESUMED (log 16). -/
def Obligations.OperandFaults : Prop :=
  (∀ (s : State) (b : RegNum) (byte : Bool) (dst src : Operand) (ea : Word), conflicts src dst = false →
    src.isDirect = false → (src.usesStack b && s.last.splim) = false → s.effective b (stepOf byte) src = ea →
    (s.initialised src.reg = false → exec (.mov b byte dst src) s = .next (deviceReset s)) ∧
    (s.addressable b (stepOf byte) src = true → byte = false → ea.getLsbD 0 = true →
      (s.dev.misalignedTraps = false → exec (.mov b byte dst src) s = .fault .addressError) ∧
      (s.dev.misalignedTraps = true →
        exec (.mov b byte dst src) s = .next ((s.beforeSourceRead b (stepOf byte) src).pend .address))) ∧
    (s.addressable b (stepOf byte) src = true → (byte = true ∨ ea.getLsbD 0 = false) → sfrAt s.dev ea = none →
      (s.corcon.psv && ea.getLsbD 15) = false → s.inRam ea (if byte then 1 else 2) = false →
      (s.dev.externalBus = false ∨ ea.toNat < 0x0800 → exec (.mov b byte dst src) s = .fault .unimplementedData) ∧
      (s.dev.externalBus = true → 0x0800 ≤ ea.toNat → exec (.mov b byte dst src) s = .refused .externalBus))) ∧
  ∀ (s u : State) (b : RegNum) (byte : Bool) (dst src : Operand) (ea : Word), conflicts src dst = false →
    s.sourceReady b byte src = true → s.afterSource b byte src = u → dst.isDirect = false →
    u.effective b (stepOf byte) dst = ea →
    (u.initialised dst.reg = false → exec (.mov b byte dst src) s = .next (deviceReset s)) ∧
    (u.addressable b (stepOf byte) dst = true → byte = false → ea.getLsbD 0 = true →
      (s.dev.misalignedTraps = false → exec (.mov b byte dst src) s = .fault .addressError) ∧
      (s.dev.misalignedTraps = true →
        exec (.mov b byte dst src) s = .next ((u.modified (stepOf byte) dst).pend .address))) ∧
    (u.addressable b (stepOf byte) dst = true → (byte = true ∨ ea.getLsbD 0 = false) → sfrAt s.dev ea = none →
      ((s.corcon.psv && ea.getLsbD 15) = true → exec (.mov b byte dst src) s = .fault .psvWrite) ∧
      ((s.corcon.psv && ea.getLsbD 15) = false → s.inRam ea (if byte then 1 else 2) = false →
        (s.dev.externalBus = false ∨ ea.toNat < 0x0800 → exec (.mov b byte dst src) s = .fault .unimplementedData) ∧
        (s.dev.externalBus = true → 0x0800 ≤ ea.toNat → exec (.mov b byte dst src) s = .refused .externalBus)))

/-- `MOV{.B} Ws, Wd` reads the source operand and writes the destination operand (R210, R200), for every operand form;
operands that modify one register twice are refused (R201, U5). The last clauses say what address each form gives and
what it leaves in its pointer, bit 0 of W15 staying 0 (R24); the step is 1 for bytes, 2 for words and 4 for MOV.D. The
forms `[Wn--]`, `[++Wn]` and `[Wn+Wb]` are PRESUMED (log 16); which instructions conflict is read as log 17 says; that
MOV writes no flag and that the byte step is 1 are general knowledge in the spec itself (log 38). That a read of the
modified pointer through its own data address gives the new value is a DESIGN CHOICE (log 53). -/
def Obligations.MovOperands : Prop :=
  (∀ (s : State) (b : RegNum) (byte : Bool) (dst src : Operand),
    (conflicts src dst = false → s.sourceReady b byte src = true →
      (s.afterSource b byte src).destReady b byte dst = true →
      exec (.mov b byte dst src) s =
        .next ((s.afterSource b byte src).afterDest b byte dst (s.sourceValue b byte src))) ∧
    (conflicts src dst = true → exec (.mov b byte dst src) s = .refused .conflictingModification)) ∧
  stepOf true = 1 ∧ stepOf false = 2 ∧
  ∀ (s : State) (b n : RegNum) (step p : Word), s.readW n = p →
    (s.effective b step ⟨.indirect, n⟩ = p ∧ s.modified step ⟨.indirect, n⟩ = s) ∧
    (s.effective b step ⟨.offset, n⟩ = p + s.readW b ∧ s.modified step ⟨.offset, n⟩ = s) ∧
    (s.effective b step ⟨.postInc, n⟩ = p ∧
      (s.modified step ⟨.postInc, n⟩).readW n = (if n = 15 then evenWord (p + step) else p + step)) ∧
    (s.effective b step ⟨.postDec, n⟩ = p ∧
      (s.modified step ⟨.postDec, n⟩).readW n = (if n = 15 then evenWord (p - step) else p - step)) ∧
    (s.effective b step ⟨.preInc, n⟩ = (if n = 15 then evenWord (p + step) else p + step) ∧
      (s.modified step ⟨.preInc, n⟩).readW n = (if n = 15 then evenWord (p + step) else p + step)) ∧
    (s.effective b step ⟨.preDec, n⟩ = (if n = 15 then evenWord (p - step) else p - step) ∧
      (s.modified step ⟨.preDec, n⟩).readW n = (if n = 15 then evenWord (p - step) else p - step)) ∧
    ∀ m, RegsKept s (s.modified step ⟨m, n⟩) [n]

/-- The frame of MOV, ADD and the one-bit shifts with a source and a destination operand: the destination register and
the modified pointers, the flags that the spec names, and the bytes stored to at the destination's effective address
change; nothing else does (R200, R210, R255, R265 to R267). The forms `[Wn--]`, `[++Wn]` and `[Wn+Wb]` are PRESUMED
(log 16); which flags are written is general knowledge in the spec itself (log 38). -/
def Obligations.OperandFrame : Prop :=
  ∀ (s t : State) (i : Instr) (w b : RegNum) (byte : Bool) (dst src : Operand),
    (i = .mov b byte dst src ∨
      b = 0 ∧ (i = .addReg w byte dst src ∨ i = .slOne byte dst src ∨ i = .lsrOne byte dst src ∨ i = .asrOne byte dst src)) →
    conflicts src dst = false → s.sourceReady b byte src = true →
    (s.afterSource b byte src).destReady b byte dst = true → exec i s = .next t →
    SameRest s t ∧ RegsKept s t (operandChanged src ++ destChanged dst) ∧
    (dst.isDirect = true → RamKept s t) ∧
    (dst.isDirect = false →
      RamKeptOutside s t ((s.afterSource b byte src).effective b (stepOf byte) dst).toNat (if byte then 1 else 2)) ∧
    SameSrRest s t ∧
    (i = .mov b byte dst src → t.sr = s.sr) ∧
    ((∀ w', i ≠ .addReg w' byte dst src) → t.sr.dc = s.sr.dc ∧ t.sr.ov = s.sr.ov)

/-- The moves between a file register and W0 or another register, where the file register can be read, or is RAM that
can be written (R211, R212, R213); and the byte order of RAM (R108, which takes it from general knowledge, D2): a
stored word has its low byte at the even address, and RAM reads so. That no flag is written is general knowledge in
the spec itself (log 38). The addresses of the CPU registers are PRESUMED (log 9). -/
def Obligations.MovFiles : Prop :=
  ∀ (s : State) (a v : BitVec 16) (f : BitVec 13) (r : RegNum) (byte : Bool),
    (s.readable false a = true → exec (.movFromFile a r) s = .next ((s.afterRead a).putWord r (s.readValue false a))) ∧
    (s.writable false a = true → exec (.movToFile a r) s = .next (s.store false a (s.readW r))) ∧
    (s.writable byte (fileAddress f) = true →
      exec (.movWregToFile byte f) s = .next (s.store byte (fileAddress f) (s.readW 0))) ∧
    (s.writable false a = true → s.data.wf = true →
      (s.store false a v).data.read a.toNat = v.extractLsb' 0 8 ∧
      (s.store false a v).data.read (a.toNat + 1) = v.extractLsb' 8 8 ∧
      s.readValue false a = s.data.read (a.toNat + 1) ++ s.data.read a.toNat) ∧
    (s.writable true a = true → s.data.wf = true →
      (s.store true a v).data.read a.toNat = v.extractLsb' 0 8 ∧
      s.readValue true a = (s.data.read a.toNat).setWidth 16)

/-- `MOV #lit16, Wnd` and `MOV.B #lit8, Wnd`: the new value (bit 0 of W15 stays 0), the initialisation bit, and the
frame (R215, R216). That no flag is written is general knowledge in the spec itself (log 38). -/
def Obligations.MovLiterals : Prop :=
  ∀ (s : State) (k : BitVec 16) (k8 : BitVec 8) (d : RegNum),
    (∃ t, exec (.movLit16 k d) s = .next t ∧ t.readW d = (if d = 15 then evenWord k else k) ∧ t.initialised d = true ∧
      RegsKept s t [d] ∧ SameRest s t ∧ t.sr = s.sr ∧ t.data = s.data) ∧
    (∃ t, exec (.movLit8 k8 d) s = .next t ∧
      t.readW d = (if d = 15 then evenWord ((s.readW d).extractLsb' 8 8 ++ k8) else (s.readW d).extractLsb' 8 8 ++ k8) ∧
      t.initialised d = s.initialised d ∧ RegsKept s t [d] ∧ SameRest s t ∧ t.sr = s.sr ∧ t.data = s.data)

/-- `MOV.D` in both directions, with a register pair or with two words at `ea` and `ea + 2`, the lower address going
with the lower register; a pair that starts at an odd register is refused (R214, U6). That no flag is written and that
the lower address goes with the lower register are general knowledge in the spec itself (log 38); that the second
address is checked too where W15 is the pointer is the model's choice (log 19), and so is that the store reads both
registers before it moves the pointer (DESIGN CHOICE, log 49). The forms `[Wn--]` and `[++Wn]` are PRESUMED (log 16);
that a pair starts at an even register is how the model reads U6 (log 33). A load whose pointer belongs to the pair
and is modified is refused (R201, U5, log 17). That a read of the modified pointer through its own data address gives
the new value is a DESIGN CHOICE (log 53). -/
def Obligations.MovDouble : Prop :=
  ∀ (s : State) (d : RegNum) (o : Operand),
    (d.getLsbD 0 = true ∨ o.isDirect = true ∧ o.reg.getLsbD 0 = true →
      exec (.movDLoad d o) s = .refused .oddPair ∧ exec (.movDStore o d) s = .refused .oddPair) ∧
    (d.getLsbD 0 = false → conflictsReg o d = true ∨ conflictsReg o (d + 1) = true →
      exec (.movDLoad d o) s = .refused .conflictingModification) ∧
    (d.getLsbD 0 = false → o.isDirect = true → o.reg.getLsbD 0 = false →
      exec (.movDLoad d o) s = .next ((s.putWord d (s.readW o.reg)).putWord (d + 1) (s.readW (o.reg + 1))) ∧
      exec (.movDStore o d) s = .next ((s.putWord o.reg (s.readW d)).putWord (o.reg + 1) (s.readW (d + 1)))) ∧
    (d.getLsbD 0 = false → o.isDirect = false → s.addressable 0 4 o = true →
      (o.usesStack 0 &&
        s.stackBad (s.effective 0 4 o + 2) (decide (2 ^ 16 ≤ (s.effective 0 4 o).toNat + 2))) = false →
      (conflictsReg o d = false → conflictsReg o (d + 1) = false → (o.usesStack 0 && s.last.splim) = false →
        (s.beforeSourceRead 0 4 o).readable false (s.effective 0 4 o) = true →
        (s.beforeSourceRead 0 4 o).readable false (s.effective 0 4 o + 2) = true →
        exec (.movDLoad d o) s =
          .next (((((s.beforeSourceRead 0 4 o).afterRead (s.effective 0 4 o)).afterRead (s.effective 0 4 o + 2)).putWord d
            ((s.beforeSourceRead 0 4 o).readValue false (s.effective 0 4 o))).putWord (d + 1)
            ((s.beforeSourceRead 0 4 o).readValue false (s.effective 0 4 o + 2)))) ∧
      (s.writable false (s.effective 0 4 o) = true → s.writable false (s.effective 0 4 o + 2) = true →
        exec (.movDStore o d) s =
          .next (((s.modified 4 o).store false (s.effective 0 4 o) (s.readW d)).store false (s.effective 0 4 o + 2)
            (s.readW (d + 1)))))

/-! ### CPU registers in data space -/

/-- Writes to CPU registers through their data addresses, by words and by one byte lane: what the register reads as
afterwards, that every other one reads as before, that only a word write to the address of a W register initialises
it, and only on a device whose parameter says so (R26, R579, D6), that a word write to SPLIM arms the stack check,
what is noted for the rules about SPLIM, DOEND and the DO loops, and which writes are refused (R111, R24, R32, R45 to
R58, R66, R145). A read of DOENDL or DOENDH right after a DO or a write to them is refused (R575). A MOV that stores
through a pointer does what a store to a file register at that address does, after the pointer modification (R200):
what a word does, whatever the address, and what a word or a byte leaves in every register but SR, CORCON, PCL and
PCH, of which StatusWrite and CoreControlWrite speak. The last clause is the case that R112 resolves: the data write
to the pointer's own register wins over the pointer modification. The forms `[Wn--]`, `[++Wn]` and `[Wn+Wb]` are
PRESUMED (log 16). The addresses are PRESUMED (log 9); which registers software may write is DEDUCED (log 39); PCL and
PCH are refused by U9, modulo addressing by R5 (log 32). -/
def Obligations.RegisterWrites : Prop :=
  ∀ (s : State) (r : RegNum) (x : Sfr) (e old : Word),
    (∀ f : BitVec 16, f.getLsbD 0 = false → sfrAt s.dev f = some x → x.stored (s.readW r) = some e →
      ∃ t, exec (.movToFile f r) s = .next t ∧ t.sfrView x = some e ∧
        (∀ y, y ≠ x → t.sfrView y = s.sfrView y) ∧ t.data = s.data ∧ t.splimArmed = (s.splimArmed || x == .splim) ∧
        (∀ n, t.initialised n = (s.initialised n || (x == .w n && s.dev.mmapWordWriteInitsW))) ∧
        t.cur.recent.splim = (s.cur.recent.splim || x == .splim) ∧
        t.cur.recent.doend = (s.cur.recent.doend || [.doendl, .doendh].contains x) ∧
        t.cur.loopRegs = (s.cur.loopRegs || [.dcount, .dostartl, .dostarth, .doendl, .doendh].contains x)) ∧
    (∀ f : BitVec 13, sfrAt s.dev (fileAddress f) = some x → s.sfrView x = some old →
      x.stored (if f.getLsbD 0 then (s.readW 0).extractLsb' 0 8 ++ old.extractLsb' 0 8
        else old.extractLsb' 8 8 ++ (s.readW 0).extractLsb' 0 8) = some e →
      ∃ t, exec (.movWregToFile true f) s = .next t ∧ t.sfrView x = some e ∧
        (∀ y, y ≠ x → t.sfrView y = s.sfrView y) ∧ t.data = s.data ∧ t.splimArmed = s.splimArmed ∧
        (∀ n, t.initialised n = s.initialised n) ∧
        t.cur.recent.splim = (s.cur.recent.splim || x == .splim) ∧
        t.cur.recent.doend = (s.cur.recent.doend || [.doendl, .doendh].contains x) ∧
        t.cur.loopRegs = (s.cur.loopRegs || [.dcount, .dostartl, .dostarth, .doendl, .doendh].contains x)) ∧
    (∀ f : BitVec 16, f.getLsbD 0 = false →
      (sfrAt s.dev f = some .pcl ∨ sfrAt s.dev f = some .pch → exec (.movToFile f r) s = .refused .pcWrite) ∧
      (sfrAt s.dev f = some .modcon → (s.readW r).getLsbD 15 = true ∨ (s.readW r).getLsbD 14 = true →
        exec (.movToFile f r) s = .refused .moduloAddressing) ∧
      (sfrAt s.dev f = some .xbrev → (s.readW r).getLsbD 15 = true →
        exec (.movToFile f r) s = .refused .moduloAddressing) ∧
      (sfrAt s.dev f = some .doendl ∨ sfrAt s.dev f = some .doendh → s.last.doend = true →
        exec (.movFromFile f r) s = .refused .doendRead)) ∧
    (∀ (b : RegNum) (byte : Bool) (dst : Operand) (u : State) (ea v : Word), dst.isDirect = false →
      s.addressable b (stepOf byte) dst = true → s.effective b (stepOf byte) dst = ea →
      s.modified (stepOf byte) dst = u →
      (byte = false → r ≠ dst.reg ∨ dst.modifies = false →
        exec (.mov b byte dst ⟨.direct, r⟩) s = exec (.movToFile ea r) u) ∧
      ((byte = true ∨ ea.getLsbD 0 = false) → sfrAt s.dev ea = some x → u.sfrView x = some old →
        (byte = false ∧ v = s.readW r ∨
          byte = true ∧ ea.getLsbD 0 = true ∧ v = (s.readW r).extractLsb' 0 8 ++ old.extractLsb' 0 8 ∨
          byte = true ∧ ea.getLsbD 0 = false ∧ v = old.extractLsb' 8 8 ++ (s.readW r).extractLsb' 0 8) →
        x.stored v = some e →
        ∃ t, exec (.mov b byte dst ⟨.direct, r⟩) s = .next t ∧ t.sfrView x = some e ∧
          (∀ y, y ≠ x → t.sfrView y = u.sfrView y) ∧ t.data = s.data ∧
          t.splimArmed = (s.splimArmed || (x == .splim && !byte)) ∧
          (∀ n, t.initialised n = (u.initialised n || (x == .w n && !byte && s.dev.mmapWordWriteInitsW))) ∧
          t.cur.recent.splim = (s.cur.recent.splim || x == .splim) ∧
          t.cur.recent.doend = (s.cur.recent.doend || [.doendl, .doendh].contains x) ∧
          t.cur.loopRegs = (s.cur.loopRegs || [.dcount, .dostartl, .dostarth, .doendl, .doendh].contains x))) ∧
    (∀ n : RegNum, n ≠ 15 → s.initialised n = true → (s.readW n).getLsbD 0 = false →
      sfrAt s.dev (s.readW n) = some (.w n) →
      ∃ t, exec (.mov 0 false ⟨.postInc, n⟩ ⟨.direct, r⟩) s = .next t ∧ t.readW n = s.readW r ∧ RegsKept s t [n])

/-- The word that SR reads as, bit by bit (R35), and a software write of SR (R37). R37 is the spec's own inference
from the access column of R35 (log 38); the address of SR is PRESUMED (log 9). A change of IPL is noted for the rule
about DO loops (R576). -/
def Obligations.StatusWrite : Prop :=
  (∀ s : State, s.sfrView .sr = some s.srWord ∧ s.srWord.getLsbD 15 = s.sr.oa ∧ s.srWord.getLsbD 14 = s.sr.ob ∧
    s.srWord.getLsbD 13 = s.sr.sa ∧ s.srWord.getLsbD 12 = s.sr.sb ∧ s.srWord.getLsbD 11 = (s.sr.oa || s.sr.ob) ∧
    s.srWord.getLsbD 10 = (s.sr.sa || s.sr.sb) ∧ (s.srWord.getLsbD 9 = true ↔ s.corcon.dl ≠ 0) ∧
    s.srWord.getLsbD 8 = s.sr.dc ∧ s.srWord.extractLsb' 5 3 = s.sr.ipl ∧ s.srWord.getLsbD 4 = s.sr.ra ∧
    s.srWord.getLsbD 3 = s.sr.n ∧ s.srWord.getLsbD 2 = s.sr.ov ∧ s.srWord.getLsbD 1 = s.sr.z ∧
    s.srWord.getLsbD 0 = s.sr.c) ∧
  ∀ (s : State) (f : BitVec 16) (r : RegNum), f.getLsbD 0 = false → sfrAt s.dev f = some .sr →
    ∃ t, exec (.movToFile f r) s = .next t ∧
      t.sr.oa = s.sr.oa ∧ t.sr.ob = s.sr.ob ∧ t.sr.ra = s.sr.ra ∧ t.da = s.da ∧
      t.sr.sa = (s.sr.sa && (s.readW r).getLsbD 13 && (s.readW r).getLsbD 10) ∧
      t.sr.sb = (s.sr.sb && (s.readW r).getLsbD 12 && (s.readW r).getLsbD 10) ∧
      t.sr.dc = (s.readW r).getLsbD 8 ∧ t.sr.n = (s.readW r).getLsbD 3 ∧ t.sr.ov = (s.readW r).getLsbD 2 ∧
      t.sr.z = (s.readW r).getLsbD 1 ∧ t.sr.c = (s.readW r).getLsbD 0 ∧
      t.sr.ipl = (if s.intcon1.nstdis then s.sr.ipl else (s.readW r).extractLsb' 5 3) ∧
      (t.cur.ipl = true ↔ s.cur.ipl = true ∨ t.sr.ipl ≠ s.sr.ipl) ∧
      RegsKept s t [] ∧ SameRest s t ∧ t.data = s.data

/-- The word that CORCON reads as, bit by bit (R40), and a software write of CORCON: the control bits take the written
value, EDT reads 0 and requests the end of an active DO loop, which is noted so that the instruction does not count
itself, and a write that would change DL or IPL3 is refused (R41, R474). The refusal is a decision of R41 (D42, log
21); that EDT is ignored without an active loop is a decision of R474 (D16, log 38), that a request while one is
pending starts the count again the model's reading (DEDUCED, log 40); the address of CORCON is PRESUMED (log 9). -/
def Obligations.CoreControlWrite : Prop :=
  (∀ s : State, s.sfrView .corcon = some s.corcon.word ∧ s.corcon.word.extractLsb' 13 3 = 0 ∧
    s.corcon.word.getLsbD 12 = s.corcon.us ∧ s.corcon.word.getLsbD 11 = false ∧
    s.corcon.word.extractLsb' 8 3 = s.corcon.dl ∧ s.corcon.word.getLsbD 7 = s.corcon.sata ∧
    s.corcon.word.getLsbD 6 = s.corcon.satb ∧ s.corcon.word.getLsbD 5 = s.corcon.satdw ∧
    s.corcon.word.getLsbD 4 = s.corcon.accsat ∧ s.corcon.word.getLsbD 3 = s.corcon.ipl3 ∧
    s.corcon.word.getLsbD 2 = s.corcon.psv ∧ s.corcon.word.getLsbD 1 = s.corcon.rnd ∧
    s.corcon.word.getLsbD 0 = s.corcon.ifm) ∧
  ∀ (s : State) (f : BitVec 16) (r : RegNum), f.getLsbD 0 = false → sfrAt s.dev f = some .corcon →
    ((s.readW r).extractLsb' 8 3 = s.corcon.dl → (s.readW r).getLsbD 3 = s.corcon.ipl3 →
      ∃ t, exec (.movToFile f r) s = .next t ∧ t.corcon.word = (s.readW r &&& 0x17FF) ∧
        t.edtPending = (if (s.readW r).getLsbD 11 && s.da then some 0 else s.edtPending) ∧
        (t.cur.edt = true ↔ s.cur.edt = true ∨ (s.readW r).getLsbD 11 = true ∧ s.da = true) ∧
        SameRest s { t with corcon := s.corcon, edtPending := s.edtPending } ∧
        RegsKept s t [] ∧ t.sr = s.sr ∧ t.data = s.data) ∧
    ((s.readW r).extractLsb' 8 3 ≠ s.corcon.dl ∨ (s.readW r).getLsbD 3 ≠ s.corcon.ipl3 →
      exec (.movToFile f r) s = .refused .corconStatus)

/-- ADD, the one-bit shifts, BSET and BCLR on a file register that is a CPU register, by words or by one byte lane:
the result is written by the register's own write rule, after the flags, so a write of SR wins (R256, R260, R261, R265
to R267, R111, R37, R41). Which flags ADD and the shifts write, and that BSET and BCLR write none, is general
knowledge in the spec itself (log 38). The addresses are PRESUMED (log 9); BSET and BCLR as word operations, and the
write of CORCON: log 21; which registers software may write is DEDUCED (log 39); modulo addressing: log 32. -/
def Obligations.FileOpsOnRegisters : Prop :=
  ∀ (s : State) (f : BitVec 13) (x : Sfr) (byte : Bool) (old cur m v w : Word) (bit : BitVec 4) (q : StatusReg)
    (i : Instr),
    sfrAt s.dev (fileAddress f) = some x → (byte = true ∨ f.getLsbD 0 = false) →
    m = (if byte then (if f.getLsbD 0 then old.extractLsb' 8 8 else old.extractLsb' 0 8).setWidth 16 else old) →
    (i = .addFile byte true f ∧ v = addResult byte m (s.readW 0) ∧ q = addSr s.sr byte m (s.readW 0) ∨
      i = .slFile byte true f ∧ v = shiftResult .sl byte m ∧ q = shiftSr s.sr .sl byte m ∨
      i = .lsrFile byte true f ∧ v = shiftResult .lsr byte m ∧ q = shiftSr s.sr .lsr byte m ∨
      i = .asrFile byte true f ∧ v = shiftResult .asr byte m ∧ q = shiftSr s.sr .asr byte m ∨
      byte = false ∧ i = .bsetFile bit f ∧ v = (m ||| 1#16 <<< bit.toNat) ∧ q = s.sr ∨
      byte = false ∧ i = .bclrFile bit f ∧ v = (m &&& ~~~(1#16 <<< bit.toNat)) ∧ q = s.sr) →
    (x = .pcl ∨ x = .pch → exec i s = .refused .pcWrite) ∧
    (s.readable byte (fileAddress f) = true → s.sfrView x = some old → (s.withSr q).sfrView x = some cur →
      w = (if byte then (if f.getLsbD 0 then v.extractLsb' 0 8 ++ cur.extractLsb' 0 8
        else cur.extractLsb' 8 8 ++ v.extractLsb' 0 8) else v) →
      (∀ e, x.stored w = some e →
        ∃ t, exec i s = .next t ∧ t.sfrView x = some e ∧
          (∀ y, y ≠ x → y ≠ .sr → t.sfrView y = s.sfrView y) ∧ t.sr = q ∧ t.data = s.data) ∧
      (x = .sr → ∃ t, exec i s = .next t ∧ t.sr = q.written s.intcon1.nstdis w ∧ t.data = s.data) ∧
      (x = .corcon → w.extractLsb' 8 3 = s.corcon.dl → w.getLsbD 3 = s.corcon.ipl3 →
        ∃ t, exec i s = .next t ∧ t.corcon.word = (w &&& 0x17FF) ∧ t.sr = q ∧ t.data = s.data) ∧
      (x = .corcon → w.extractLsb' 8 3 ≠ s.corcon.dl ∨ w.getLsbD 3 ≠ s.corcon.ipl3 →
        exec i s = .refused .corconStatus) ∧
      (x = .modcon → w.getLsbD 15 = true ∨ w.getLsbD 14 = true → exec i s = .refused .moduloAddressing) ∧
      (x = .xbrev → w.getLsbD 15 = true → exec i s = .refused .moduloAddressing))

/-- The PSV window: with PSV set, a read above 0x8000 gives the low word, or one of its bytes, of the program word at
PSVPAG and the address's bits 14:1 (R121); a write there faults (R111, U4). R121 marks the page split as its inference
and the low word as general knowledge (log 38). -/
def Obligations.PsvWindow : Prop :=
  ∀ (s : State) (n d : RegNum) (f : BitVec 16) (w : ProgWord), s.corcon.psv = true →
    (n ≠ 15 → s.initialised n = true → (s.readW n).getLsbD 15 = true →
      (s.psvpag ++ (s.readW n).extractLsb' 1 14 ++ 0#1 : BitVec 23).toNat ≤ s.dev.progTop.toNat →
      s.progWord (s.psvpag ++ (s.readW n).extractLsb' 1 14 ++ 0#1) = w →
      ((s.readW n).getLsbD 0 = false →
        ∃ t, exec (.mov 0 false ⟨.direct, d⟩ ⟨.indirect, n⟩) s = .next t ∧
          t.readW d = (if d = 15 then evenWord (w.extractLsb' 0 16) else w.extractLsb' 0 16) ∧
          RegsKept s t [d] ∧ t.data = s.data) ∧
      (d ≠ 15 →
        ∃ t, exec (.mov 0 true ⟨.direct, d⟩ ⟨.indirect, n⟩) s = .next t ∧
          t.readW d =
            (s.readW d).extractLsb' 8 8 ++
              (if (s.readW n).getLsbD 0 then w.extractLsb' 8 8 else w.extractLsb' 0 8) ∧
          RegsKept s t [d] ∧ t.data = s.data)) ∧
    (f.getLsbD 15 = true → f.getLsbD 0 = false → exec (.movToFile f d) s = .fault .psvWrite)

/-! ### The stack -/

/-- PUSH and POP, where the access passes the stack check and reaches RAM (R220, R221, R130, R131). `POP W15` is
refused (U5; that it falls under U5 is the model's choice, log 17). The expansion of POP is R131's own inference, that
no flag is written general knowledge (log 38). -/
def Obligations.PushPop : Prop :=
  ∀ (s : State) (r : RegNum),
    (s.pushReady = true → s.data.wf = true →
      ∃ t, exec (.push r) s = .next t ∧ t.load false (s.readW 15) = s.readW r ∧ t.readW 15 = evenWord (s.readW 15 + 2) ∧
        RegsKept s t [15] ∧ RamKeptOutside s t (s.readW 15).toNat 2 ∧ SameRest s t ∧ t.sr = s.sr) ∧
    (r ≠ 15 → s.popReady = true →
      ∃ t, exec (.pop r) s = .next t ∧ t.readW r = s.popValue ∧ t.readW 15 = evenWord (s.readW 15 - 2) ∧
        RegsKept s t [r, 15] ∧ t.data = s.data ∧ SameRest s t ∧ t.sr = s.sr) ∧
    exec (.pop 15) s = .refused .conflictingModification

/-- PUSH.S saves W0 to W3 and five flags in the shadows, POP.S restores them; nothing else changes (R222, R223). That
POP.S keeps the shadows is R223's own inference (log 38). -/
def Obligations.ShadowPushPop : Prop :=
  ∀ s : State,
    (∃ t, exec .pushS s = .next t ∧ t.wShadow = #v[s.readW 0, s.readW 1, s.readW 2, s.readW 3] ∧
      t.srShadow = { dc := s.sr.dc, n := s.sr.n, ov := s.sr.ov, z := s.sr.z, c := s.sr.c } ∧
      SameRest s { t with wShadow := s.wShadow, srShadow := s.srShadow } ∧ RegsKept s t [] ∧ t.sr = s.sr ∧
      t.data = s.data) ∧
    (∃ t, exec .popS s = .next t ∧ t.readW 0 = s.wShadow[0] ∧ t.readW 1 = s.wShadow[1] ∧ t.readW 2 = s.wShadow[2] ∧
      t.readW 3 = s.wShadow[3] ∧ (∀ r : RegNum, r.toNat < 4 → t.initialised r = true) ∧ t.sr.dc = s.srShadow.dc ∧
      t.sr.n = s.srShadow.n ∧ t.sr.ov = s.srShadow.ov ∧ t.sr.z = s.srShadow.z ∧ t.sr.c = s.srShadow.c ∧
      SameSrRest s t ∧ SameRest s t ∧ RegsKept s t [0, 1, 2, 3] ∧ t.data = s.data)

/-- LNK and ULNK, where their push or pop is ready (R224, R225). Their semantics is general knowledge in the spec
itself (log 38). -/
def Obligations.LinkUnlink : Prop :=
  ∀ (s : State) (k : BitVec 14),
    (s.pushReady = true →
      exec (.lnk k) s =
        .next (((s.pushed (s.readW 14)).putWord 14 (evenWord (s.readW 15 + 2))).putWord 15
          (evenWord (s.readW 15 + 2) + k.setWidth 16))) ∧
    ((s.putWord 15 (s.readW 14)).popReady = true →
      exec .ulnk s =
        .next ((s.putWord 15 (s.readW 14)).popped.putWord 14 (s.putWord 15 (s.readW 14)).popValue))

/-- The stack checks: beyond SPLIM once armed (R506), below 0x0800 (R507), and wrapping once armed (R508). PUSH, CALL,
RCALL, LNK, the pops of POP, RETURN, RETFIE, RETLW and ULNK, and a source or destination operand whose address W15
takes part in end with StackError pending; on a device that performs the faulting access, PUSH and POP go on (R202,
D10). A pop, or such a source operand, right after a write of SPLIM is refused (R570). That the check compares the
address itself with SPLIM is decision D9 (log 38). The order of the checks is the model's (log 19), the forms
`[Wn--]`, `[++Wn]` and `[Wn+Wb]` are PRESUMED (log 16), and so is that the byte form of RETLW writes only the low byte
of its register before the pop that fails (log 29). The range of the target of RCALL rests on its recalled encoding
(PRESUMED, log 1). MOV stands here for the operand forms of the other instructions. -/
def Obligations.StackErrors : Prop :=
  ∀ (s : State) (r d b : RegNum) (target : PcAddr) (off : BitVec 16) (k : BitVec 14) (byte : Bool) (lit : BitVec 10)
    (o : Operand) (i : Instr) (u : State),
    (s.splimArmed = true ∧ s.splim.toNat < (s.readW 15).toNat ∨ (s.readW 15).toNat < 0x0800 →
      (s.dev.faultingAccessPerformed = false →
        exec (.push r) s = .next (s.pend .stack) ∧ exec (.lnk k) s = .next (s.pend .stack) ∧
        (s.pc.toNat + 4 < 2 ^ 23 → exec (.call target) s = .next (s.pend .stack)) ∧
        (s.pc.toNat + 2 < 2 ^ 23 → 0 ≤ (s.pc.toNat : Int) + (2 + 2 * off.toInt) →
          (s.pc.toNat : Int) + (2 + 2 * off.toInt) < 2 ^ 23 → exec (.rcall off) s = .next (s.pend .stack))) ∧
      (s.dev.faultingAccessPerformed = true → s.writable false (s.readW 15) = true →
        exec (.push r) s = .next ((s.pend .stack).pushed (s.readW r)))) ∧
    (i = .pop d ∧ d ≠ 15 ∧ u = s ∨ i = .ret ∧ u = s ∨ i = .retfie ∧ u = s ∨
        i = .retlw byte lit d ∧ d ≠ 15 ∧ u = s.putReg byte d (lit.setWidth 16) ∨
        i = .ulnk ∧ u = s.putWord 15 (s.readW 14) →
      (s.last.splim = true → exec i s = .refused .splimThenW15Read) ∧
      (s.last.splim = false →
        s.splimArmed = true ∧ s.splim.toNat < (evenWord (u.readW 15 - 2)).toNat ∨
          (evenWord (u.readW 15 - 2)).toNat < 0x0800 →
        (s.dev.faultingAccessPerformed = false → exec i s = .next (u.beforePopRead.pend .stack)) ∧
        (s.dev.faultingAccessPerformed = true → u.beforePopRead.readable false (u.beforePopRead.readW 15) = true →
          i = .pop d →
          exec i s = .next (((s.beforePopRead.pend .stack).afterRead (s.beforePopRead.readW 15)).putWord d s.popValue)))) ∧
    (o.isDirect = false → o.usesStack b = true →
      (conflicts o ⟨.direct, d⟩ = false → s.last.splim = true →
        exec (.mov b byte ⟨.direct, d⟩ o) s = .refused .splimThenW15Read) ∧
      (s.initialised o.reg = true → s.dev.faultingAccessPerformed = false →
        s.splimArmed = true ∧ s.splim.toNat < (s.effective b (stepOf byte) o).toNat ∨
          (s.effective b (stepOf byte) o).toNat < 0x0800 ∨
          s.splimArmed = true ∧ o.mode = .preInc ∧ 2 ^ 16 ≤ (s.readW o.reg).toNat + (stepOf byte).toNat ∨
          s.splimArmed = true ∧ o.mode = .offset ∧ 2 ^ 16 ≤ (s.readW o.reg).toNat + (s.readW b).toNat →
        (i = .mov b byte ⟨.direct, d⟩ o ∧ s.last.splim = false ∧ conflicts o ⟨.direct, d⟩ = false ∨
          i = .mov b byte o ⟨.direct, d⟩ →
          ∃ t, exec i s = .next t ∧ t.pendingTraps = s.pendingTraps.put .stack true ∧
            RegsKept s t (operandChanged o) ∧ t.data = s.data ∧ t.sr = s.sr)))

/-! ### The MCU ALU -/

/-- SE and ZE (R230, R231). The flags are general knowledge in the spec itself (log 38); the forms `[Wn--]` and
`[++Wn]` are PRESUMED (log 16). A source that modifies the destination register is refused (R201, U5, log 17). That a
read of the modified pointer through its own data address gives the new value is a DESIGN CHOICE (log 53). -/
def Obligations.ByteExtensions : Prop :=
  ∀ (s : State) (d : RegNum) (src : Operand) (b : Byte),
    (conflictsReg src d = true →
      exec (.se d src) s = .refused .conflictingModification ∧ exec (.ze d src) s = .refused .conflictingModification) ∧
    (conflictsReg src d = false → s.sourceReady 0 true src = true → (s.sourceValue 0 true src).extractLsb' 0 8 = b →
      exec (.se d src) s =
        .next (((s.afterSource 0 true src).withSr { s.sr with c := !b.msb, n := b.msb, z := b == 0 }).putWord d
          (b.signExtend 16)) ∧
      exec (.ze d src) s =
        .next (((s.afterSource 0 true src).withSr { s.sr with c := true, n := false, z := b == 0 }).putWord d
          (b.setWidth 16)))

/-- `ADD{.B} Wb, Ws, Wd` (R255). That ADD writes all five flags is general knowledge in the spec itself (log 38); the
forms `[Wn--]` and `[++Wn]` are PRESUMED (log 16). Operands that modify one register twice are refused (R201, U5;
which they are is read as log 17 says). That a read of the modified pointer through its own data address gives the new
value is a DESIGN CHOICE (log 53). -/
def Obligations.AddRegister : Prop :=
  ∀ (s : State) (b : RegNum) (byte : Bool) (dst src : Operand),
    (conflicts src dst = true → exec (.addReg b byte dst src) s = .refused .conflictingModification) ∧
    (conflicts src dst = false → s.sourceReady 0 byte src = true →
      (s.afterSource 0 byte src).destReady 0 byte dst = true →
      exec (.addReg b byte dst src) s =
        .next (((s.afterSource 0 byte src).withSr (addSr s.sr byte (s.readW b) (s.sourceValue 0 byte src))).afterDest 0
          byte dst (addResult byte (s.readW b) (s.sourceValue 0 byte src))))

/-- `ADD{.B} f {,WREG}`, where the file register can be read and the destination is WREG or RAM (R256). That ADD
writes all five flags is general knowledge in the spec itself (log 38). -/
def Obligations.AddFile : Prop :=
  ∀ (s : State) (byte toFile : Bool) (f : BitVec 13), s.readable byte (fileAddress f) = true →
    s.fileWritable byte toFile f = true →
    exec (.addFile byte toFile f) s =
      .next ((s.withSr (addSr s.sr byte (s.readValue byte (fileAddress f)) (s.readW 0))).afterFile byte toFile f
        (addResult byte (s.readValue byte (fileAddress f)) (s.readW 0)))

/-- The result and the five flags of an addition of bytes or of words (R250): OV is set exactly when the signed sum
does not fit; and where SR holds them after an addition of either size (R35, R251). The reading of OV is R250's own
inference (log 38). -/
def Obligations.AddFlagsExact : Prop :=
  (∀ (n : Nat) (a b : BitVec n) (cin : Bool), n = 8 ∨ n = 16 →
    (addFlags a b cin).value.toNat = (a.toNat + b.toNat + cin.toNat) % 2 ^ n ∧
    ((addFlags a b cin).c = true ↔ 2 ^ n ≤ a.toNat + b.toNat + cin.toNat) ∧
    ((addFlags a b cin).dc = true ↔ 2 ^ (n / 2) ≤ a.toNat % 2 ^ (n / 2) + b.toNat % 2 ^ (n / 2) + cin.toNat) ∧
    ((addFlags a b cin).n = true ↔ (addFlags a b cin).value.toInt < 0) ∧
    ((addFlags a b cin).ov = true ↔
      ¬ (-(2 ^ (n - 1)) ≤ a.toInt + b.toInt + (cin.toNat : Int) ∧
        a.toInt + b.toInt + (cin.toNat : Int) < 2 ^ (n - 1))) ∧
    ((addFlags a b cin).z = true ↔ (addFlags a b cin).value = 0)) ∧
  ∀ (r : StatusReg) (a b : Word) (x : AluResult 8) (y : AluResult 16),
    x = addFlags (a.extractLsb' 0 8) (b.extractLsb' 0 8) false → y = addFlags a b false →
    addResult true a b = x.value.setWidth 16 ∧ addResult false a b = y.value ∧
    addSr r true a b = { r with c := x.c, dc := x.dc, n := x.n, ov := x.ov, z := x.z } ∧
    addSr r false a b = { r with c := y.c, dc := y.dc, n := y.n, ov := y.ov, z := y.z }

/-- `BSET f, #bit` and `BCLR f, #bit` on a file register in RAM (R260, R261). `BTSC f, #bit`: nothing happens where
the bit is 1; where it is 0 the next instruction, of one word or of two, is skipped (R262, R420); a skipped word that
is no instruction, or lies above PROG_TOP, counts by its top byte too (DESIGN CHOICE, log 43; the top bytes are
recalled ones: PRESUMED, log 1). That BSET and BCLR write no flag is general knowledge in the spec itself (log 38). -/
def Obligations.BitInstructions : Prop :=
  ∀ (s : State) (bit : BitVec 4) (f : BitVec 13) (n : Nat),
    (s.writable false (fileAddress f) = true →
      exec (.bsetFile bit f) s =
        .next (s.store false (fileAddress f) (s.load false (fileAddress f) ||| 1#16 <<< bit.toNat)) ∧
      exec (.bclrFile bit f) s =
        .next (s.store false (fileAddress f) (s.load false (fileAddress f) &&& ~~~(1#16 <<< bit.toNat)))) ∧
    (s.readable false (fileAddress f) = true →
      ((s.readValue false (fileAddress f)).getLsbD bit.toNat = true → exec (.btscFile bit f) s = .next s) ∧
      ((s.readValue false (fileAddress f)).getLsbD bit.toNat = false → evenBits s.pc = true →
        firstWordLength (s.progWord (s.pc + 2)) = n → s.pc.toNat + 2 + 2 * n < 2 ^ 23 →
        exec (.btscFile bit f) s =
          .next { s with cur := { s.cur with jump := some (s.pc + BitVec.ofNat 23 (2 + 2 * n)), skip := n } }))

/-- The one-bit shifts of an operand and of a file register that can be read, with WREG or RAM as the destination
(R265, R266, R267). Their forms and flags are general knowledge in the spec itself (log 38); the forms `[Wn--]` and
`[++Wn]` are PRESUMED (log 16). Operands that modify one register twice are refused (R201, U5; which they are is read
as log 17 says). That a read of the modified pointer through its own data address gives the new value is a DESIGN
CHOICE (log 53). -/
def Obligations.ShiftOneBit : Prop :=
  ∀ (s : State) (k : ShiftKind) (byte toFile : Bool) (dst src : Operand) (f : BitVec 13) (i : Instr),
    (i = .slOne byte dst src ∨ i = .lsrOne byte dst src ∨ i = .asrOne byte dst src → conflicts src dst = true →
      exec i s = .refused .conflictingModification) ∧
    (k = .sl ∧ i = .slOne byte dst src ∨ k = .lsr ∧ i = .lsrOne byte dst src ∨ k = .asr ∧ i = .asrOne byte dst src →
      conflicts src dst = false → s.sourceReady 0 byte src = true →
      (s.afterSource 0 byte src).destReady 0 byte dst = true →
      exec i s =
        .next (((s.afterSource 0 byte src).withSr (shiftSr s.sr k byte (s.sourceValue 0 byte src))).afterDest 0 byte dst
          (shiftResult k byte (s.sourceValue 0 byte src)))) ∧
    (k = .sl ∧ i = .slFile byte toFile f ∨ k = .lsr ∧ i = .lsrFile byte toFile f ∨
        k = .asr ∧ i = .asrFile byte toFile f →
      s.readable byte (fileAddress f) = true → s.fileWritable byte toFile f = true →
      exec i s =
        .next ((s.withSr (shiftSr s.sr k byte (s.readValue byte (fileAddress f)))).afterFile byte toFile f
          (shiftResult k byte (s.readValue byte (fileAddress f)))))

/-- The multi-bit shifts, by a literal and by the low five bits of a register: each of them answers this next state,
on every state and all operands (R265, R266, R267). Their forms and flags are general knowledge in the spec itself
(log 38). -/
def Obligations.ShiftManyBits : Prop :=
  ∀ (s : State) (b d r : RegNum) (k : BitVec 4) (n : Nat) (v : Word) (i : Instr) (kind : ShiftKind),
    (kind = .sl ∧ i = .slLit b d k ∨ kind = .lsr ∧ i = .lsrLit b d k ∨ kind = .asr ∧ i = .asrLit b d k) ∧ n = k.toNat ∨
    (kind = .sl ∧ i = .slReg b d r ∨ kind = .lsr ∧ i = .lsrReg b d r ∨ kind = .asr ∧ i = .asrReg b d r) ∧
      n = (s.readW r).toNat % 32 →
    v = shiftMany kind (s.readW b) n →
    exec i s = .next ((s.withSr { s.sr with n := v.msb, z := v == 0 }).putWord d v)

/-- What the shifts compute: SL multiplies and wraps, LSR divides an unsigned and ASR a signed value and round down,
for every count; a one-bit shift moves out the top or the bottom bit, and SR holds it in C, with N and Z of the result
(R265, R266, R267, R35). Their forms are general knowledge in the spec itself (log 38). -/
def Obligations.ShiftsExact : Prop :=
  (∀ (a : Word) (k : Nat),
    (shiftMany .sl a k).toNat = a.toNat * 2 ^ k % 2 ^ 16 ∧ (shiftMany .lsr a k).toNat = a.toNat / 2 ^ k ∧
      (shiftMany .asr a k).toInt = a.toInt / 2 ^ k) ∧
  (∀ (n : Nat) (a : BitVec n), n = 8 ∨ n = 16 →
    (shiftOne .sl a).1.toNat = a.toNat * 2 % 2 ^ n ∧ (shiftOne .lsr a).1.toNat = a.toNat / 2 ∧
    (shiftOne .asr a).1.toInt = a.toInt / 2 ∧
    ((shiftOne .sl a).2 = true ↔ 2 ^ (n - 1) ≤ a.toNat) ∧
    ((shiftOne .lsr a).2 = true ↔ a.toNat % 2 = 1) ∧ ((shiftOne .asr a).2 = true ↔ a.toNat % 2 = 1)) ∧
  ∀ (r : StatusReg) (k : ShiftKind) (a : Word) (x : Byte) (y : Word),
    x = (shiftOne k (a.extractLsb' 0 8)).1 → y = (shiftOne k a).1 →
    shiftResult k true a = x.setWidth 16 ∧ shiftResult k false a = y ∧
    shiftSr r k true a = { r with c := (shiftOne k (a.extractLsb' 0 8)).2, n := x.msb, z := x == 0 } ∧
    shiftSr r k false a = { r with c := (shiftOne k a).2, n := y.msb, z := y == 0 }

/-- The MCU multiplies: the exact product of the operands, signed or unsigned each, goes to a register pair, low word
first; no flag changes (R269 to R273). The operand syntax, the even pair and the file register forms are general
knowledge in the spec itself (log 38); the refusal of an odd pair: log 33; the forms `[Wn--]` and `[++Wn]` are
PRESUMED (log 16). A source that modifies a register of the pair is refused (R201, U5, log 17). That a read of the
modified pointer through its own data address gives the new value is a DESIGN CHOICE (log 53). -/
def Obligations.Multiplies : Prop :=
  ∀ (s : State) (b d : RegNum) (src : Operand) (f : BitVec 13) (i : Instr) (p : Int),
    (d.getLsbD 0 = true → i = .mulUU b d src ∨ i = .mulUS b d src ∨ i = .mulSU b d src ∨ i = .mulSS b d src →
      exec i s = .refused .oddPair) ∧
    (d.getLsbD 0 = false → conflictsReg src d = true ∨ conflictsReg src (d + 1) = true →
      i = .mulUU b d src ∨ i = .mulUS b d src ∨ i = .mulSU b d src ∨ i = .mulSS b d src →
      exec i s = .refused .conflictingModification) ∧
    (i = .mulUU b d src ∧ p = (s.readW b).toNat * (s.sourceValue 0 false src).toNat ∨
      i = .mulUS b d src ∧ p = (s.readW b).toNat * (s.sourceValue 0 false src).toInt ∨
      i = .mulSU b d src ∧ p = (s.readW b).toInt * (s.sourceValue 0 false src).toNat ∨
      i = .mulSS b d src ∧ p = (s.readW b).toInt * (s.sourceValue 0 false src).toInt →
      d.getLsbD 0 = false → conflictsReg src d = false → conflictsReg src (d + 1) = false →
      s.sourceReady 0 false src = true →
      exec i s =
          .next (((s.afterSource 0 false src).putWord d ((BitVec.ofInt 32 p).extractLsb' 0 16)).putWord (d + 1)
            ((BitVec.ofInt 32 p).extractLsb' 16 16)) ∧
        (i = .mulUU b d src → (BitVec.ofInt 32 p).toNat = p) ∧
        (i ≠ .mulUU b d src → (BitVec.ofInt 32 p).toInt = p)) ∧
    (s.readable false (fileAddress f) = true →
      p = (s.readW 0).toNat * (s.readValue false (fileAddress f)).toNat →
      exec (.mulFile false f) s =
          .next ((s.putWord 2 ((BitVec.ofInt 32 p).extractLsb' 0 16)).putWord 3 ((BitVec.ofInt 32 p).extractLsb' 16 16)) ∧
        (BitVec.ofInt 32 p).toNat = p) ∧
    (s.readable true (fileAddress f) = true →
      p = ((s.readW 0).toNat % 256 : Nat) * (s.readValue true (fileAddress f)).toNat →
      exec (.mulFile true f) s = .next (s.putWord 2 (BitVec.ofInt 16 p)) ∧ (BitVec.ofInt 16 p).toNat = p)

/-- `TBLRDL{.B} Ws, Wd`: the low word, or one of its bytes, of the program word at TBLPAG and the pointer (R440,
R122). A register-direct source is refused (the model's choice, log 17). A word access at an odd address faults, or
makes AddressError pending on a device whose parameter says so (R109, R504, log 11), before TBLPAG is looked at
(DESIGN CHOICE, log 42), the pointer then keeping its new value (DESIGN CHOICE, log 48); a table address with bit 23
set faults (decision D32, log 38). That the low word is read is general knowledge in the spec itself (log 38); the
forms `[Wn--]` and `[++Wn]` are PRESUMED (log 16). Operands that modify one register twice are refused (R201, U5;
which they are is read as log 17 says). -/
def Obligations.TableRead : Prop :=
  ∀ (s : State) (byte : Bool) (dst src : Operand) (ea : Word) (w : ProgWord),
    (src.isDirect = true → exec (.tblrdl byte dst src) s = .refused .reservedOperand) ∧
    (conflicts src dst = true → exec (.tblrdl byte dst src) s = .refused .conflictingModification) ∧
    (src.isDirect = false → conflicts src dst = false → s.addressable 0 (stepOf byte) src = true →
      (src.usesStack 0 && s.last.splim) = false → s.effective 0 (stepOf byte) src = ea →
      (byte = false → ea.getLsbD 0 = true →
        (s.dev.misalignedTraps = false → exec (.tblrdl byte dst src) s = .fault .addressError) ∧
        (s.dev.misalignedTraps = true →
          exec (.tblrdl byte dst src) s = .next ((s.beforeSourceRead 0 (stepOf byte) src).pend .address))) ∧
      (byte = true ∨ ea.getLsbD 0 = false →
        (s.tblpag.getLsbD 7 = true → exec (.tblrdl byte dst src) s = .fault .tableAddress) ∧
        (s.tblpag.getLsbD 7 = false → s.progImplemented (s.tblpag.extractLsb' 0 7 ++ ea.extractLsb' 1 15 ++ 0#1) = true →
          s.progWord (s.tblpag.extractLsb' 0 7 ++ ea.extractLsb' 1 15 ++ 0#1) = w →
          (s.beforeSourceRead 0 (stepOf byte) src).destReady 0 byte dst = true →
          exec (.tblrdl byte dst src) s =
            .next ((s.beforeSourceRead 0 (stepOf byte) src).afterDest 0 byte dst
              (if byte then (if ea.getLsbD 0 then w.extractLsb' 8 8 else w.extractLsb' 0 8).setWidth 16
               else w.extractLsb' 0 16)))))

/-! ### The DSP engine -/

/-- `AccWrite(x, t)`: the three saturation and overflow modes, the status bits, and that nothing else changes but the
arithmetic trap with the two status bits of the accumulator in INTCON1, which AccumulatorTraps gives (R333, R331,
R332). The overflow bit in the 39-bit and the catastrophic mode is a decision of R333 (D19, log 38). -/
def Obligations.AccumulatorModes : Prop :=
  ∀ (s : State) (a : Acc) (t : Int),
    (s.corcon.satOf a = true → s.corcon.accsat = false →
      (s.accWrite a t).acc a =
        (if -(2 ^ 31) ≤ t ∧ t ≤ 2 ^ 31 - 1 then BitVec.ofInt 40 t else if 0 < t then 0x007FFFFFFF else 0xFF80000000) ∧
      (s.accWrite a t).sr.overflowOf a = false ∧
      (s.accWrite a t).sr.saturatedOf a = (s.sr.saturatedOf a || !decide (-(2 ^ 31) ≤ t ∧ t ≤ 2 ^ 31 - 1))) ∧
    (s.corcon.satOf a = true → s.corcon.accsat = true →
      (s.accWrite a t).acc a =
        (if -(2 ^ 39) ≤ t ∧ t ≤ 2 ^ 39 - 1 then BitVec.ofInt 40 t else if 0 < t then 0x7FFFFFFFFF else 0x8000000000) ∧
      (s.accWrite a t).sr.overflowOf a = !decide (-(2 ^ 31) ≤ t ∧ t ≤ 2 ^ 31 - 1) ∧
      (s.accWrite a t).sr.saturatedOf a = (s.sr.saturatedOf a || !decide (-(2 ^ 39) ≤ t ∧ t ≤ 2 ^ 39 - 1))) ∧
    (s.corcon.satOf a = false →
      (s.accWrite a t).acc a = BitVec.ofInt 40 t ∧
      (s.accWrite a t).sr.overflowOf a = !decide (-(2 ^ 31) ≤ t ∧ t ≤ 2 ^ 31 - 1) ∧
      (s.accWrite a t).sr.saturatedOf a = (s.sr.saturatedOf a || !decide (-(2 ^ 39) ≤ t ∧ t ≤ 2 ^ 39 - 1))) ∧
    (s.accWrite a t).srWord.getLsbD 11 = ((s.accWrite a t).sr.oa || (s.accWrite a t).sr.ob) ∧
    (s.accWrite a t).srWord.getLsbD 10 = ((s.accWrite a t).sr.sa || (s.accWrite a t).sr.sb) ∧
    (s.accWrite a t).acc (otherAcc a) = s.acc (otherAcc a) ∧
    (s.accWrite a t).sr.overflowOf (otherAcc a) = s.sr.overflowOf (otherAcc a) ∧
    (s.accWrite a t).sr.saturatedOf (otherAcc a) = s.sr.saturatedOf (otherAcc a) ∧
    (s.accWrite a t).sr.dc = s.sr.dc ∧ (s.accWrite a t).sr.n = s.sr.n ∧ (s.accWrite a t).sr.ov = s.sr.ov ∧
    (s.accWrite a t).sr.z = s.sr.z ∧ (s.accWrite a t).sr.c = s.sr.c ∧ (s.accWrite a t).sr.ipl = s.sr.ipl ∧
    (s.accWrite a t).sr.ra = s.sr.ra ∧
    (∀ x, x ≠ .arithmetic → (s.accWrite a t).pendingTraps.has x = s.pendingTraps.has x) ∧
    (s.accWrite a t).intcon1.nstdis = s.intcon1.nstdis ∧ (s.accWrite a t).intcon1.ovate = s.intcon1.ovate ∧
    (s.accWrite a t).intcon1.ovbte = s.intcon1.ovbte ∧ (s.accWrite a t).intcon1.covte = s.intcon1.covte ∧
    (s.accWrite a t).intcon1.sftacerr = s.intcon1.sftacerr ∧ (s.accWrite a t).intcon1.div0err = s.intcon1.div0err ∧
    (a = .accA →
      (s.accWrite a t).intcon1.ovberr = s.intcon1.ovberr ∧ (s.accWrite a t).intcon1.covberr = s.intcon1.covberr) ∧
    (a = .accB →
      (s.accWrite a t).intcon1.ovaerr = s.intcon1.ovaerr ∧ (s.accWrite a t).intcon1.covaerr = s.intcon1.covaerr) ∧
    SameRest s { s.accWrite a t with
      acca := s.acca, accb := s.accb, pendingTraps := s.pendingTraps, intcon1 := s.intcon1 } ∧
    RegsKept s (s.accWrite a t) [] ∧ (s.accWrite a t).data = s.data

/-- The traps of `AccWrite`: overflow with OVATE or OVBTE, and a catastrophic overflow with COVTE, make the arithmetic
trap pending and set their status bits (R334). When OA and OB are set follows a decision of R331 (D19, log 38). -/
def Obligations.AccumulatorTraps : Prop :=
  ∀ (s : State) (t : Int),
    ((s.accWrite .accA t).pendingTraps.arithmetic = true ↔
      s.pendingTraps.arithmetic = true ∨ (s.accWrite .accA t).sr.oa = true ∧ s.intcon1.ovate = true ∨
        s.corcon.sata = false ∧ ¬ (-(2 ^ 39) ≤ t ∧ t ≤ 2 ^ 39 - 1) ∧ s.intcon1.covte = true) ∧
    ((s.accWrite .accA t).intcon1.ovaerr = true ↔
      s.intcon1.ovaerr = true ∨ (s.accWrite .accA t).sr.oa = true ∧ s.intcon1.ovate = true) ∧
    ((s.accWrite .accA t).intcon1.covaerr = true ↔
      s.intcon1.covaerr = true ∨
        s.corcon.sata = false ∧ ¬ (-(2 ^ 39) ≤ t ∧ t ≤ 2 ^ 39 - 1) ∧ s.intcon1.covte = true) ∧
    ((s.accWrite .accB t).pendingTraps.arithmetic = true ↔
      s.pendingTraps.arithmetic = true ∨ (s.accWrite .accB t).sr.ob = true ∧ s.intcon1.ovbte = true ∨
        s.corcon.satb = false ∧ ¬ (-(2 ^ 39) ≤ t ∧ t ≤ 2 ^ 39 - 1) ∧ s.intcon1.covte = true) ∧
    ((s.accWrite .accB t).intcon1.ovberr = true ↔
      s.intcon1.ovberr = true ∨ (s.accWrite .accB t).sr.ob = true ∧ s.intcon1.ovbte = true) ∧
    ((s.accWrite .accB t).intcon1.covberr = true ↔
      s.intcon1.covberr = true ∨
        s.corcon.satb = false ∧ ¬ (-(2 ^ 39) ≤ t ∧ t ≤ 2 ^ 39 - 1) ∧ s.intcon1.covte = true)

/-- The MAC class (R340 to R345, R311, R312, R338, R339), for every prefetch and write-back form: the product of the
registers before the instruction goes to the accumulator by `AccWrite`; prefetched words and moved pointers and the
rounded other accumulator of before are written, and a register that takes such a word is initialised (R26); nothing
else changes. The prefetch operands are general knowledge in the spec itself (log 38), the indexed forms, the field
codes and the order of the write-back the family's or the model's (PRESUMED, log 27); that W12 is read as data in the
indexed forms, uninitialised too, is a DESIGN CHOICE (log 42), and so is which violation comes first. Where a prefetch
cannot be made, X first, the instruction does nothing else (R27, R339, U7). That the prefetched words are read before
the accumulator is written is R141 and D21 (DEDUCED, log 47); the reset: log 10, a misaligned word: log 11; two
prefetches into one register: log 17. -/
def Obligations.DspMultiplies : Prop :=
  ∀ (s : State) (i : Instr) (p : MulPair) (m : BitVec 2) (a : Acc) (xd yd : BitVec 2) (x y : Prefetch) (wb : WriteBack)
    (v : Int),
    (i = .mac p a xd yd x y wb ∧
        v = (s.acc a).toInt + s.corcon.product (s.readW (pairRegs p).1) (s.readW (pairRegs p).2) ∨
      i = .msc p a xd yd x y wb ∧
        v = (s.acc a).toInt - s.corcon.product (s.readW (pairRegs p).1) (s.readW (pairRegs p).2) ∨
      wb = .none ∧
        (i = .mpy p a xd yd x y ∧ v = s.corcon.product (s.readW (pairRegs p).1) (s.readW (pairRegs p).2) ∨
        i = .mpyN p a xd yd x y ∧ v = -s.corcon.product (s.readW (pairRegs p).1) (s.readW (pairRegs p).2) ∨
        i = .macSq m a xd yd x y ∧
          v = (s.acc a).toInt + s.corcon.product (s.readW (operandReg m)) (s.readW (operandReg m)) ∨
        i = .mpySq m a xd yd x y ∧ v = s.corcon.product (s.readW (operandReg m)) (s.readW (operandReg m)))) →
    (prefetchConflict xd yd x y = true → exec i s = .refused .conflictingModification) ∧
    (prefetchConflict xd yd x y = false →
      PrefetchStops i s false x ∧ (s.prefetchReady false x = true → PrefetchStops i s true y)) ∧
    (prefetchConflict xd yd x y = false → s.prefetchReady false x = true → s.prefetchReady true y = true →
      s.writeBackReady wb = true →
      ∃ t, exec i s = .next t ∧ SameRest (s.accWrite a v) t ∧ t.sr = (s.accWrite a v).sr ∧
        (∀ r, t.readW r =
          s.dspReg xd yd x y wb (s.readValue false (s.prefetchEa false x))
            (s.readValue false (s.prefetchEa true y))
            (storeValue s.corcon (s.acc (otherAcc a)) 0 true) r) ∧
        (∀ r, t.initialised r =
          (s.initialised r || (hasPrefetch x && r == operandReg xd) || (hasPrefetch y && r == operandReg yd) ||
            (wb == .w13 && r == 13))) ∧
        (wb ≠ .w13Inc → t.data = s.data) ∧
        (wb = .w13Inc →
          t.data = (s.store false (s.readW 13) (storeValue s.corcon (s.acc (otherAcc a)) 0 true)).data))

/-- ED and EDAC (R346, R347): the square of Wm goes to the accumulator and the difference of the two prefetched words
to Wxd, which is then initialised (R26); the pointers move; nothing else changes. Without both prefetches they are
refused. The reading of the operands is general knowledge in the spec itself (log 38), the indexed forms and the field
codes the family's or the model's (PRESUMED, log 27); that W12 is read as data in the indexed forms, uninitialised
too, is a DESIGN CHOICE (log 42), and so is which violation comes first. Where a prefetch cannot be made, X first, the
instruction does nothing else (R27, R339, U7). That the prefetched words are read before the accumulator is written is
R141 and D21 (DEDUCED, log 47); the reset: log 10, a misaligned word: log 11; that both prefetches are needed: log 17. -/
def Obligations.EuclideanDistance : Prop :=
  ∀ (s : State) (i : Instr) (m : BitVec 2) (a : Acc) (xd : BitVec 2) (x y : Prefetch) (v : Int),
    (i = .ed m a xd x y ∧ v = s.corcon.product (s.readW (operandReg m)) (s.readW (operandReg m)) ∨
      i = .edac m a xd x y ∧
        v = (s.acc a).toInt + s.corcon.product (s.readW (operandReg m)) (s.readW (operandReg m))) →
    ((hasPrefetch x && hasPrefetch y) = false → exec i s = .refused .reservedOperand) ∧
    (hasPrefetch x = true → hasPrefetch y = true →
      PrefetchStops i s false x ∧ (s.prefetchReady false x = true → PrefetchStops i s true y)) ∧
    (hasPrefetch x = true → hasPrefetch y = true → s.prefetchReady false x = true → s.prefetchReady true y = true →
      ∃ t, exec i s = .next t ∧ SameRest (s.accWrite a v) t ∧ t.sr = (s.accWrite a v).sr ∧
        (∀ r, t.readW r =
          s.dspReg xd xd x .none .none
            (s.readValue false (s.prefetchEa false x) -
              s.readValue false (s.prefetchEa true y)) 0 0 r + prefetchMoves true y r) ∧
        (∀ r, t.initialised r = (s.initialised r || r == operandReg xd)) ∧
        t.data = s.data)

/-- LAC, ADD Ws and ADD Acc: the datum at bits 31:16, shifted right for a positive and left for a negative count and
rounded down, loads the accumulator or is added to it; or the other accumulator is added (R350, R351, R352). The
placement of the datum and the range of the count are general knowledge in the spec itself (log 38); the forms
`[Wn--]`, `[++Wn]` and `[Wn+Wb]` are PRESUMED (log 16). That a read of the modified pointer through its own data
address gives the new value is a DESIGN CHOICE (log 53). -/
def Obligations.AccumulatorLoads : Prop :=
  ∀ (s : State) (a : Acc) (b : RegNum) (k : BitVec 4) (src : Operand) (d : Int),
    exec (.addAcc a) s = .next (s.accWrite a ((s.acc a).toInt + (s.acc (otherAcc a)).toInt)) ∧
    (s.sourceReady b false src = true →
      d = (if 0 ≤ k.toInt then (s.sourceValue b false src).toInt * 2 ^ 16 / 2 ^ k.toInt.toNat
        else (s.sourceValue b false src).toInt * 2 ^ 16 * 2 ^ (-k.toInt).toNat) →
      exec (.lac a b k src) s = .next ((s.afterSource b false src).accWrite a d) ∧
      exec (.addAccSrc a b k src) s = .next ((s.afterSource b false src).accWrite a ((s.acc a).toInt + d)))

/-- SAC and SAC.R store the accumulator's store value, truncated or rounded; the accumulator stays (R353, R354). The
forms `[Wn--]`, `[++Wn]` and `[Wn+Wb]` are PRESUMED (log 16). -/
def Obligations.AccumulatorStores : Prop :=
  ∀ (s : State) (a : Acc) (b : RegNum) (k : BitVec 4) (dst : Operand), s.destReady b false dst = true →
    (∃ t, exec (.sac a b k dst) s = .next t ∧
      t = s.afterDest b false dst (storeValue s.corcon (s.acc a) k.toInt false) ∧ t.acca = s.acca ∧ t.accb = s.accb ∧
      t.sr = s.sr) ∧
    (∃ t, exec (.sacR a b k dst) s = .next t ∧
      t = s.afterDest b false dst (storeValue s.corcon (s.acc a) k.toInt true) ∧ t.acca = s.acca ∧ t.accb = s.accb ∧
      t.sr = s.sr)

/-- The shift and the store value (R335, R336, R337): a count of 0 to 16 divides by a power of two and rounds down,
one of -16 to -1 multiplies and wraps; the shifted accumulator is divided by 2^16 and rounded down, or rounded to
nearest with ties up (RND = 1) or to even (RND = 0); with SATDW it is held within 16 bits, without it the low 16 bits
are taken. That the rounding carries into the guard bits, and that bits shifted out to the left are lost, are
decisions of R335 and R337 (D18, log 38). -/
def Obligations.StoreValueExact : Prop :=
  (∀ (x : AccWord) (k : Int),
    (0 ≤ k → k ≤ 16 → (shift40 x k).toInt = x.toInt / 2 ^ k.toNat) ∧
    (-16 ≤ k → k < 0 → shift40 x k = BitVec.ofInt 40 (x.toInt * 2 ^ (-k).toNat))) ∧
  ∀ (c : CoreControl) (x : AccWord) (k : Int) (rounded : Bool), ∃ h : Int,
    (rounded = false → h * 2 ^ 16 ≤ (shift40 x k).toInt ∧ (shift40 x k).toInt < (h + 1) * 2 ^ 16) ∧
    (rounded = true →
      h * 2 ^ 16 - 2 ^ 15 ≤ (shift40 x k).toInt ∧ (shift40 x k).toInt ≤ h * 2 ^ 16 + 2 ^ 15 ∧
      ((shift40 x k).toInt % 2 ^ 16 = 2 ^ 15 →
        (c.rnd = true → (shift40 x k).toInt < h * 2 ^ 16) ∧ (c.rnd = false → h % 2 = 0))) ∧
    storeValue c x k rounded =
      (if c.satdw then BitVec.ofInt 16 (max (-0x8000) (min 0x7FFF h)) else BitVec.ofInt 16 h)

/-- SFTAC: a shift by -16 to 16 writes the accumulator; any other count sets SFTACERR, makes the arithmetic trap
pending and leaves the accumulator (R355). That the low six bits of the register count and that the shift passes
through the saturation logic are general knowledge in the spec itself (log 38). -/
def Obligations.AccumulatorShift : Prop :=
  ∀ (s : State) (a : Acc) (k : BitVec 6) (r : RegNum) (n : Int) (i : Instr),
    (i = .sftacLit a k ∧ n = k.toInt ∨ i = .sftacReg a r ∧ n = ((s.readW r).extractLsb' 0 6).toInt) →
    (-16 ≤ n ∧ n ≤ 16 →
      exec i s =
        .next (s.accWrite a (if 0 ≤ n then (s.acc a).toInt / 2 ^ n.toNat else (s.acc a).toInt * 2 ^ (-n).toNat))) ∧
    (n < -16 ∨ 16 < n →
      exec i s = .next ({ s with intcon1 := { s.intcon1 with sftacerr := true } }.pend .arithmetic))

/-! ### Divides -/

/-- The five divides (R386): the first execution starts with the quotient and remainder of its operands, later ones
count, and the 18th writes them to W0 and W1; only W0, W1, N, OV, Z, C and the progress change. Where the spec gives
no quotient (U8) the divide runs with some quotient and remainder (free values, log 23). A 32-bit dividend that is no
register pair is refused (how the model reads U6, DEDUCED, log 33). The iteration is a decision of R386 (D20, log 23);
that the execution after the 18th starts anew, however long the REPEAT, is a DESIGN CHOICE (log 54). -/
def Obligations.DivideSteps : Prop :=
  ∀ (s : State) (i : Instr) (d : Word) (quo : Quotient),
    (∀ hi lo n, i = .divSD hi lo n ∨ i = .divUD hi lo n → divideOf i s = none → exec i s = .refused .oddPair) ∧
    (divideOf i s = some (d, quo) →
      (∀ p, s.divideUnderWay = some p → p.k < 17 →
        ∃ t, exec i s = .next t ∧
          t.div = some { k := p.k + 1, q := p.q, r := p.r, w0 := t.readW 0, w1 := t.readW 1 } ∧ DivideKept s t) ∧
      (∀ p, s.divideUnderWay = some p → p.k = 17 →
        ∃ t, exec i s = .next t ∧ t.readW 0 = p.q ∧ t.readW 1 = p.r ∧ t.div = none ∧ DivideKept s t) ∧
      (s.divideUnderWay = none → d ≠ 0 →
        ∃ t q r, exec i s = .next t ∧ t.div = some { k := 1, q := q, r := r, w0 := t.readW 0, w1 := t.readW 1 } ∧
          (∀ qr, quo = some qr → (q, r) = qr) ∧ DivideKept s t))

/-- The quotients and remainders (R381 to R385): whenever the divisor is not 0 and the quotient fits, quotient times
divisor plus remainder is the dividend, the remainder is smaller than the divisor, and in the signed divides it has
the sign of the dividend; DIVF divides the dividend times 2^15. The truncation and the sign of the remainder are
general knowledge in the spec itself (log 38). -/
def Obligations.DivideValues : Prop :=
  (∀ n d : Int, d ≠ 0 → -32768 ≤ d ∧ d ≤ 32767 → -32768 ≤ n.tdiv d ∧ n.tdiv d ≤ 32767 →
    ∃ q r : Word, signedQuotient n d = some (q, r) ∧ q.toInt * d + r.toInt = n ∧ r.toInt.natAbs < d.natAbs ∧
      0 ≤ n * r.toInt) ∧
  (∀ n d : Nat, d ≠ 0 → d ≤ 0xFFFF → n / d ≤ 0xFFFF →
    ∃ q r : Word, unsignedQuotient n d = some (q, r) ∧ q.toNat * d + r.toNat = n ∧ r.toNat < d) ∧
  (∀ m d : Int, -32768 ≤ d ∧ d ≤ 32767 → m.natAbs < d.natAbs →
    ∃ q r : Word, fractionalQuotient m d = some (q, r) ∧ q.toInt * d + r.toInt = m * 2 ^ 15 ∧
      r.toInt.natAbs < d.natAbs ∧ 0 ≤ m * r.toInt)

/-- A divide by zero, as it starts, sets DIV0ERR and makes the arithmetic trap pending; W0, W1 and the flags N, OV, Z,
C take free values (R387, R386, log 23). The execution that traps is a decision of R387 (D20). -/
def Obligations.DivideByZero : Prop :=
  ∀ (s : State) (i : Instr) (quo : Quotient), divideOf i s = some (0, quo) → s.divideUnderWay = none →
    ∃ t, exec i s = .next t ∧ t.intcon1 = { s.intcon1 with div0err := true } ∧
      t.pendingTraps = s.pendingTraps.put .arithmetic true ∧
      DivideKept s { t with intcon1 := s.intcon1, pendingTraps := s.pendingTraps }

/-! ### Program flow -/

/-- CALL and RCALL stack the address of the next instruction, low word first, and go to their target (R400, R401,
R402), where both pushes are ready. R402 says only that the pc takes the target: that it is a signed number of words
from the next instruction is the recalled encoding of R170 (PRESUMED, log 1). That CALL has two words is general
knowledge in the spec itself (G11, log 38). A return address or a relative target outside 23 bits faults, with nothing
stacked (R33; that it is treated so: DEDUCED, log 30). That the stacked address is the next instruction's is a
decision of R400 (D12, log 38). -/
def Obligations.Calls : Prop :=
  ∀ (s : State) (target : PcAddr) (off : BitVec 16) (ra : PcAddr),
    (2 ^ 23 ≤ s.pc.toNat + 4 → exec (.call target) s = .fault .pcOverflow) ∧
    (2 ^ 23 ≤ s.pc.toNat + 2 ∨ (s.pc.toNat : Int) + (2 + 2 * off.toInt) < 0 ∨
        2 ^ 23 ≤ (s.pc.toNat : Int) + (2 + 2 * off.toInt) →
      exec (.rcall off) s = .fault .pcOverflow) ∧
    (s.pushReady = true → (s.pushed (pcLow ra)).pushReady = true →
      (s.pc.toNat + 4 < 2 ^ 23 → ra = s.pc + 4 →
        exec (.call target) s =
          .next { (s.pushed (pcLow ra)).pushed (pcHigh ra) with cur :=
            { ((s.pushed (pcLow ra)).pushed (pcHigh ra)).cur with jump := some (evenPc target) } }) ∧
      (s.pc.toNat + 2 < 2 ^ 23 → ra = s.pc + 2 → 0 ≤ (s.pc.toNat : Int) + (2 + 2 * off.toInt) →
        (s.pc.toNat : Int) + (2 + 2 * off.toInt) < 2 ^ 23 →
        exec (.rcall off) s =
          .next { (s.pushed (pcLow ra)).pushed (pcHigh ra) with cur :=
            { ((s.pushed (pcLow ra)).pushed (pcHigh ra)).cur with
              jump := some (evenPc (BitVec.ofInt 23 ((s.pc.toNat : Int) + (2 + 2 * off.toInt)))) } }))

/-- GOTO and BRA only choose the next pc, NOP does nothing, DISI loads DISICNT (R403, R404, R410, R430). R404 says
only that the pc takes the target: that it is a signed number of words from the next instruction is the recalled
encoding of R170 (PRESUMED, log 1). A relative target outside 23 bits faults (R33; for relative targets DEDUCED, log
30). -/
def Obligations.Jumps : Prop :=
  ∀ (s : State) (target : PcAddr) (off : BitVec 16) (k : BitVec 14) (a : Int),
    exec .nop s = .next s ∧ exec (.disi k) s = .next { s with disicnt := k } ∧
    exec (.goto target) s = .next { s with cur := { s.cur with jump := some (evenPc target) } } ∧
    (a = (s.pc.toNat : Int) + (2 + 2 * off.toInt) →
      (0 ≤ a → a < 2 ^ 23 →
        exec (.bra off) s = .next { s with cur := { s.cur with jump := some (evenPc (BitVec.ofInt 23 a)) } }) ∧
      (a < 0 ∨ 2 ^ 23 ≤ a → exec (.bra off) s = .fault .pcOverflow))

/-- RETURN and RETLW pop the high and then the low word of the return address and go there; RETLW first writes its
literal (R405, R406; the byte form: log 29). RETLW into W15 is refused (U5; that it falls under U5 is the model's
reading, log 17). The operand form of RETLW is general knowledge in the spec itself (log 38). -/
def Obligations.Returns : Prop :=
  ∀ (s u : State) (byte : Bool) (lit : BitVec 10) (d : RegNum) (i : Instr),
    exec (.retlw byte lit 15) s = .refused .conflictingModification ∧
    (i = .ret ∧ u = s ∨ i = .retlw byte lit d ∧ d ≠ 15 ∧ u = s.putReg byte d (lit.setWidth 16) →
      u.popReady = true → u.popped.popReady = true →
      exec i s =
        .next { u.popped.popped with cur :=
          { u.popped.popped.cur with
            jump := some (u.popValue.extractLsb' 0 7 ++ u.popped.popValue.extractLsb' 1 15 ++ 0#1) } })

/-- RETFIE pops two words and takes SRL, IPL3 and the pc from them; SR[15:8] and every other bit of CORCON stay
(R407). That IPL changed is noted for the rule about DO loops (R576; that RETFIE counts there is read as log 25 says).
The place of IPL3 is a decision of R407 (D11, log 38). -/
def Obligations.ReturnFromException : Prop :=
  ∀ (s : State) (hi lo : Word), s.popReady = true → s.popped.popReady = true → s.popValue = hi →
    s.popped.popValue = lo →
    ∃ t, exec .retfie s = .next t ∧ t.srl = hi.extractLsb' 8 8 ∧ t.corcon = { s.corcon with ipl3 := hi.getLsbD 7 } ∧
      t.srh = s.srh ∧ t.cur.jump = some (hi.extractLsb' 0 7 ++ lo.extractLsb' 1 15 ++ 0#1) ∧
      t.readW 15 = s.popped.popped.readW 15 ∧ RegsKept s t [15] ∧ t.data = s.data ∧
      SameRest s { t with corcon := s.corcon } ∧ (t.cur.ipl = true ↔ s.cur.ipl = true ∨ t.sr.ipl ≠ s.sr.ipl)

/-! ### Loops -/

/-- `REPEAT #lit14`: one word, one cycle; RCOUNT takes the literal, RA is set where it is not 0, the divide progress
is dropped, and nothing else changes (R450). -/
def Obligations.RepeatStarts : Prop :=
  ∀ (s : State) (count : BitVec 14),
    (Instr.repeatLit count).words = 1 ∧ (Instr.repeatLit count).cycles = 1 ∧
    ∃ t, exec (.repeatLit count) s = .next t ∧ t.rcount = count ∧ t.sr = { s.sr with ra := count != 0 } ∧ t.div = none ∧
      SameRest s { t with rcount := s.rcount, div := s.div } ∧ RegsKept s t [] ∧ t.data = s.data

/-- DO with a literal or with the low 14 bits of a register: the three registers go to their shadows and are loaded,
DL goes up and DA is set; DL = 7 and the loop lengths -2, -1 and 0 are refused (R460, R461, R465, R480, U11, U12).
That DO wrote the loop registers, DOEND among them, is noted for the rules about them (R472, R575). -/
def Obligations.DoStarts : Prop :=
  ∀ (s : State) (count : BitVec 14) (off : BitVec 16) (r : RegNum) (i : Instr),
    i = .doLit count off ∨ i = .doReg r off ∧ count = (s.readW r).extractLsb' 0 14 →
    (s.corcon.dl = 7 → exec i s = .refused .doNesting) ∧
    (s.corcon.dl ≠ 7 → off.toInt = 0 ∨ off.toInt = -1 ∨ off.toInt = -2 → exec i s = .refused .doLoopLength) ∧
    (s.corcon.dl ≠ 7 → off.toInt ≠ 0 → off.toInt ≠ -1 → off.toInt ≠ -2 → s.pc.toNat + 4 < 2 ^ 23 →
      0 ≤ (s.pc.toNat : Int) + (4 + 2 * off.toInt) → (s.pc.toNat : Int) + (4 + 2 * off.toInt) < 2 ^ 23 →
      ∃ t, exec i s = .next t ∧ t.dostart = s.pc + 4 ∧
        (t.doend.toNat : Int) = (s.pc.toNat : Int) + (4 + 2 * off.toInt) ∧ t.dcount = count.setWidth 16 ∧
        t.dostartShadow = s.dostart ∧ t.doendShadow = s.doend ∧ t.dcountShadow = s.dcount ∧
        t.corcon = { s.corcon with dl := s.corcon.dl + 1 } ∧ t.da = true ∧ RegsKept s t [] ∧ t.sr = s.sr ∧
        t.data = s.data ∧ t.rcount = s.rcount ∧ t.cur.loopRegs = true ∧ t.cur.recent.doend = true)

/-- The end of a step that no hazard rule refuses and that is no loop's (R14, R31, R530): the instruction's own
target, or else the next instruction; DISICNT goes down by the cycle count and stops at 0; the count of a pending
early termination goes up (R474; a second request: log 40); what the instruction did is kept for the rules about the
next one, where RETURN and RETFIE force no stall and RETLW may force one by its register (R405 to R407, R592; what a
RETFIE brings back: log 35); nothing else changes. The cycle count (R585, R590): that of the family, the words that a
taken skip passes over, two for a read through the PSV window, one where a source address was computed from a register
that the instruction before wrote. How the parts of the count add up is read as log 22 says. -/
def Obligations.StepAdvances : Prop :=
  (∀ (i : Instr) (t : State) (psv stall : Nat),
    (t.cur.psv = true ∧ psv = 2 ∨ t.cur.psv = false ∧ psv = 0) →
    ((∃ r : Fin 16, t.last.wrote.getLsbD r = true ∧ t.cur.srcEa.getLsbD r = true) ∧ stall = 1 ∨
      (∀ r : Fin 16, t.last.wrote.getLsbD r = true → t.cur.srcEa.getLsbD r = false) ∧ stall = 0) →
    stepCycles i t = i.cycles + t.cur.skip + psv + stall) ∧
  ∀ (i : Instr) (s t : State), (loopRegsHazard i s t || iplHazard i s t) = false →
    (∀ a, t.cur.jump = some a →
      ∃ u, finish i s t = .next u ∧ u.pc = a ∧ StepEnds i t u ∧ LoopsKept t u ∧ u.sr = t.sr ∧ u.rcount = t.rcount ∧
        u.free = t.free ∧ (i ≠ .retfie → u.held = t.held)) ∧
    (t.cur.jump = none → s.sr.ra = false → t.atLoopEnd = false → t.pc.toNat + 2 * i.words < 2 ^ 23 →
      ∃ u, finish i s t = .next u ∧ u.pc.toNat = t.pc.toNat + 2 * i.words ∧ StepEnds i t u ∧ LoopsKept t u ∧
        u.sr = t.sr ∧ u.rcount = t.rcount ∧ u.free = t.free ∧ u.held = t.held) ∧
    (t.cur.jump = none → s.sr.ra = false → t.atLoopEnd = false → 2 ^ 23 ≤ t.pc.toNat + 2 * i.words →
      finish i s t = .fault .pcOverflow)

/-- REPEAT Wn does what REPEAT does with the low 14 bits of the register (R451; that only these count is its decision
D14, log 38). The REPEAT hold (R455): an instruction that began with RA set and wrote no pc executes again while
RCOUNT counts down; RA clears when RCOUNT reaches 0; the rest is as at the end of any step (R530, R474). An
instruction that may not be a target is refused while it is repeated, and so is a REPEAT that stands right before one
(R458, R573, U13; the look-ahead is the model's, log 26). The instant at which RA clears is a decision of R455 (D15,
log 38); that an instruction which raises a trap is held too is a choice of the model (DESIGN CHOICE, log 45). -/
def Obligations.RepeatHolds : Prop :=
  (∀ (s : State) (r : RegNum),
    ∃ t, exec (.repeatReg r) s = .next t ∧ exec (.repeatLit ((s.readW r).extractLsb' 0 14)) s = .next t) ∧
  (∀ (i : Instr) (s : State),
    contextRefusal i s = some .repeatTarget ↔
      s.sr.ra = true ∧ i.NotRepeatable ∨
      ((∃ n, i = .repeatLit n) ∨ ∃ r, i = .repeatReg r) ∧ s.pc.toNat + 2 < 2 ^ 23 ∧
        ∃ j, s.fetchAt (s.pc + 2) = .instr j ∧ j.NotRepeatable) ∧
  ∀ (i : Instr) (s t : State), (loopRegsHazard i s t || iplHazard i s t) = false → s.sr.ra = true →
    t.cur.jump = none →
    (t.rcount = 0 → t.pc.toNat + 2 * i.words < 2 ^ 23 →
      ∃ u, finish i s t = .next u ∧ u.pc.toNat = t.pc.toNat + 2 * i.words ∧ u.sr = { t.sr with ra := false } ∧
        u.rcount = 0 ∧ StepEnds i t u ∧ LoopsKept t u ∧ u.free = t.free) ∧
    (t.rcount ≠ 0 →
      ∃ u, finish i s t = .next u ∧ u.pc = t.pc ∧ u.rcount.toNat + 1 = t.rcount.toNat ∧
        u.sr = { t.sr with ra := t.sr.ra && u.rcount != 0 } ∧ StepEnds i t u ∧ LoopsKept t u ∧ u.free = t.free)

/-- The end of a DO loop. At the end address an instruction that may not be the last is refused, among them the target
of a REPEAT and a two-word instruction whose first or second word stands there, and so is a loop of length -2, -1 or 0
(R478, R480, R574; the second word: DEDUCED, log 52). The last and the penultimate instruction may not write DCOUNT,
DOSTART, DOEND or DL, and the one before may not change IPL (R472, R576, U11). From the second level on the same holds
at the end of the loop whose registers the shadows hold; which loops these are and where the instructions stand is
read as log 25 says. Else, at the end address, the loop test (R470, R465, R474): the loop ends when DCOUNT is 0 or an
early termination is due, restoring the outer loop's registers at DL = 2; else DCOUNT goes down and the pc to DOSTART;
the rest is as at the end of any step. The count of a pending early termination goes up first, except in the
instruction that requested it. After the outermost loop DCOUNT has a free value (log 24). The test before the
decrement is a decision of R470 (D16, C6), the count of an early termination one of R474. That RESET may stand at the
end address is a choice of the model (DESIGN CHOICE, log 51). -/
def Obligations.DoLoopTest : Prop :=
  (∀ (i : Instr) (s : State), s.da = true → contextRefusal i s ≠ some .repeatTarget →
    (contextRefusal i s = some .doLastInstruction ↔
      (∃ a, (a = s.pc ∨ i.words = 2 ∧ a = s.pc + 2) ∧ (a = s.doend ∨ s.corcon.dl ≠ 1 ∧ a = s.doendShadow)) ∧
        (i.NotLoopEnd ∨ s.sr.ra = true ∨
          2 ≤ s.pc.toNat ∧ ∃ j, s.fetchAt (s.pc - 2) = .instr j ∧ ((∃ n, j = .repeatLit n) ∨ ∃ r, j = .repeatReg r))) ∧
    (contextRefusal i s ≠ some .doLastInstruction → s.pc = s.doend →
      s.dostart = s.doend ∨ s.dostart = s.doend + 2 ∨ s.dostart = s.doend + 4 →
      contextRefusal i s = some .doLoopLength)) ∧
  (∀ (i : Instr) (s t : State),
    (loopRegsHazard i s t = true ↔
      s.da = true ∧ t.cur.loopRegs = true ∧
        ∃ a, (a = s.pc ∨ a = s.pc + BitVec.ofNat 23 (2 * i.words)) ∧
          (a = s.doend ∨ s.corcon.dl ≠ 1 ∧ a = s.doendShadow ∨ a = t.doend)) ∧
    (iplHazard i s t = true ↔
      s.da = true ∧ t.cur.ipl = true ∧
        ∃ first last, (first = s.dostart ∧ last = s.doend ∨
            s.corcon.dl ≠ 1 ∧ first = s.dostartShadow ∧ last = s.doendShadow) ∧
          (s.pc = last → t.cur.jump = none) ∧
          ∃ a b, a = (if s.pc = last then first else s.pc + BitVec.ofNat 23 (2 * i.words)) ∧
            b = (if a = last then first else a + BitVec.ofNat 23 (2 * firstWordLength (s.progWord a))) ∧ b = last) ∧
    (loopRegsHazard i s t = true ∨ iplHazard i s t = true → finish i s t = .refused .doHazard)) ∧
  ∀ (i : Instr) (s t : State), (loopRegsHazard i s t || iplHazard i s t) = false → s.sr.ra = false →
    t.cur.jump = none → t.atLoopEnd = true →
    (t.dcount = 0 ∨ t.cur.edt = false ∧ (t.edtPending = some 1 ∨ t.edtPending = some 2) ∨
        t.cur.edt = true ∧ t.edtPending = some 2 →
      t.pc.toNat + 2 * i.words < 2 ^ 23 →
      ∃ u, finish i s t = .next u ∧ u.pc.toNat = t.pc.toNat + 2 * i.words ∧
        u.corcon = { t.corcon with dl := t.corcon.dl - 1 } ∧ u.edtPending = none ∧
        (t.corcon.dl = 2 → u.dostart = t.dostartShadow ∧ u.doend = t.doendShadow ∧ u.dcount = t.dcountShadow) ∧
        (t.corcon.dl ≠ 2 → u.dostart = t.dostart ∧ u.doend = t.doend) ∧
        (t.corcon.dl ≠ 2 → t.corcon.dl ≠ 1 → u.dcount = t.dcount) ∧ StepEnds i t u ∧ u.sr = t.sr ∧
        u.rcount = t.rcount) ∧
    (t.dcount ≠ 0 →
      t.edtPending = none ∨ t.edtPending = some 0 ∨ t.cur.edt = true ∧ t.edtPending = some 1 →
      ∃ u, finish i s t = .next u ∧ u.pc = t.dostart ∧ u.dcount = t.dcount - 1 ∧ u.corcon = t.corcon ∧
        u.dostart = t.dostart ∧ u.doend = t.doend ∧ StepEnds i t u ∧ EdtCounted t u ∧ u.sr = t.sr ∧
        u.rcount = t.rcount ∧ u.free = t.free)

/-! ### Exceptions -/

/-- Which exception is accepted (R510, R530): one that is pending and whose source the device has (R8; the sources
that the spec does not name: log 44), of a level above the CPU's, not an interrupt of priority 1 to 6 while DISICNT is
not 0, and of the highest level of all that are pending; and if there is such a pending trap above the CPU's level, or
such an interrupt that is not held off, one is accepted. The comparison of levels is general knowledge in the spec
itself (log 38), their values and the tie-break the model's (log 14), the inputs log 15. -/
def Obligations.ExceptionAcceptance : Prop :=
  (∀ d : Device, trapExists d .arithmetic = true ∧ trapExists d .stack = true ∧ trapExists d .address = true ∧
    trapExists d .illegal = true ∧ ∀ n, trapExists d (.other n) = true ↔ 4 + n.val < d.trapSources) ∧
  ∀ s : State,
    (∀ t, s.accepted = some (.trap t) →
      s.pendingTraps.has t = true ∧ trapExists s.dev t = true ∧ s.cpuLevel < 8 + (trapLevel s.dev t).toNat ∧
      ∀ t', s.pendingTraps.has t' = true → trapExists s.dev t' = true →
        (trapLevel s.dev t').toNat ≤ (trapLevel s.dev t).toNat) ∧
    (∀ n, s.accepted = some (.irq n) →
      ∃ q, s.irq = some q ∧ q.source = n ∧ n.val < s.dev.interruptSources ∧ s.cpuLevel < q.priority.toNat ∧
        (q.priority = 7 ∨ s.disicnt = 0) ∧ ∀ t, s.pendingTraps.has t = true → trapExists s.dev t = false) ∧
    (∀ t, s.pendingTraps.has t = true → trapExists s.dev t = true → s.cpuLevel < 8 + (trapLevel s.dev t).toNat →
      s.accepted ≠ none) ∧
    (∀ q, s.irq = some q → q.source.val < s.dev.interruptSources → s.cpuLevel < q.priority.toNat →
      (q.priority = 7 ∨ s.disicnt = 0) → s.accepted ≠ none)

/-- The entry of an accepted exception (R512, R513, R514, R520, R531), where the two stacked words go to RAM: the pc
and SRL with IPL3 are stacked, RA is cleared, the level is raised, the trap is no longer pending and the request is
consumed (log 15), and the pc goes to the vector; N, OV, Z and C with the rest of SR stay, and so does everything else
(R512) but the model's list of interrupted programs, of which EntryThenReturn speaks; what the last instruction did
stays known to the rules about the one after it (log 35). That the stacked pc is the next instruction's is decision
D12, the place of IPL3 D11, the change of the level D22, that DISICNT is unchanged D44, and that a stack violation is
noted while the entry completes D26, all of the spec (log 38); level 7 under NSTDIS is the spec's reading of G40 (log
38); the vectors: log 13. -/
def Obligations.ExceptionEntry : Prop :=
  ∀ (s : State) (e : Exc) (sp : Word), s.resetReq = false → s.accepted = some e → s.readW 15 = sp → s.data.wf = true →
    s.writable false sp = true → s.writable false (sp + 2) = true → sp.toNat + 2 < 2 ^ 16 →
    ∃ t, step s = .next t ∧ t.load false sp = pcLow s.pc ∧
      t.load false (sp + 2) = s.srl ++ (BitVec.ofBool s.corcon.ipl3 ++ s.pc.extractLsb' 16 7) ∧
      t.readW 15 = sp + 4 ∧ RegsKept s t [15] ∧ RamKeptOutside s t sp.toNat 4 ∧
      t.sr = { s.sr with ra := false, ipl := t.sr.ipl } ∧ t.srh = s.srh ∧
      t.pc = vectorOf s.dev e ∧ t.cur = Scratch.empty ∧
      SameRest s { t with pc := s.pc, corcon := s.corcon, pendingTraps := s.pendingTraps, irq := s.irq } ∧
      t.free = s.free ∧
      t.last = { s.last with wrote := 0 } ∧
      (∀ x, e = .trap x → t.corcon = { s.corcon with ipl3 := true } ∧ t.sr.ipl = trapLevel s.dev x ∧ t.irq = s.irq ∧
        t.pendingTraps.has x = false ∧
        ∀ y, y ≠ x → y ≠ .stack → t.pendingTraps.has y = s.pendingTraps.has y) ∧
      (∀ n, e = .irq n → t.corcon = { s.corcon with ipl3 := false } ∧ t.irq = none ∧
        (s.intcon1.nstdis = true → t.sr.ipl = 7) ∧
        (∀ q, s.irq = some q → s.intcon1.nstdis = false → t.sr.ipl = q.priority) ∧
        ∀ y, y ≠ .stack → t.pendingTraps.has y = s.pendingTraps.has y) ∧
      (e ≠ .trap .stack →
        t.pendingTraps.has .stack = (s.pendingTraps.has .stack || s.stackBad sp false || s.stackBad (sp + 2) false))

/-- RETFIE undoes the entry of an exception: after any handler that leaves W15 and the two stacked words as the entry
left them, it gives back SRL, IPL3 and W15 as they were and goes to the interrupted pc (R407, R512, R525, R456); the
step ends there, whatever the handler did last and wherever the interrupted pc stands in a DO loop (R476), unless
RETFIE itself stands before the penultimate instruction of a loop and changes IPL (R576, log 25); as the last
instruction of the only loop it works (R470); and the rules about SPLIM and DOEND hold for the instruction there as if
nothing had come between (log 35). The place of IPL3 is a decision of R132 and R407 (D11, log 38). -/
def Obligations.EntryThenReturn : Prop :=
  ∀ (s t h : State) (e : Exc) (sp : Word), s.Inv → s.resetReq = false → s.accepted = some e → s.readW 15 = sp →
    s.writable false sp = true → s.writable false (sp + 2) = true → sp.toNat + 4 < 2 ^ 16 → step s = .next t →
    h.readW 15 = t.readW 15 → h.load false sp = t.load false sp → h.load false (sp + 2) = t.load false (sp + 2) →
    h.writable false sp = true → h.writable false (sp + 2) = true → h.last.splim = false →
    h.stackBad sp false = false → h.stackBad (sp + 2) false = false →
    ∃ u, exec .retfie h = .next u ∧ u.cur.jump = some s.pc ∧ u.srl = s.srl ∧ u.corcon.ipl3 = s.corcon.ipl3 ∧
      u.readW 15 = sp ∧ RegsKept h u [15] ∧ u.data = h.data ∧
      (h.cur = Scratch.empty → h.held = t.held →
        iplHazard .retfie h u = false ∨ h.pc = h.doend ∧ (h.corcon.dl = 0 ∨ h.corcon.dl = 1) →
        ∃ v, finish .retfie h u = .next v ∧ v.pc = s.pc ∧ v.last.splim = s.last.splim ∧ v.last.doend = s.last.doend)

/-- The illegal address trap (R505, R120): an instruction whose following two words are not all implemented executes
with the trap pending; at a pc above PROG_TOP nothing executes, the trap is pending and the pc advances (the advance:
log 12). R505 marks its extension to all instructions as its own inference (log 38). -/
def Obligations.IllegalAddress : Prop :=
  ∀ s : State,
    (s.dev.progTop.toNat < s.pc.toNat + 4 → s.notePrefetch = s.pend .illegal) ∧
    (s.resetReq = false → s.accepted = none → s.dev.progTop.toNat < s.pc.toNat → s.pc.toNat + 2 < 2 ^ 23 →
      ∃ t, step s = .next t ∧ t.pendingTraps = s.pendingTraps.put .illegal true ∧ t.pc = s.pc + 2 ∧ t.w = s.w ∧
        t.sr = s.sr ∧ t.data = s.data)

/-- The forms that have a row and no rule are refused, `MOV f {,WREG}` among them, and so is PWRSAV (R154, R213, R431,
U1, U10). Which forms these are is said in log 34. -/
def Obligations.FormsWithoutRule : Prop :=
  ∀ (s : State) (b d : RegNum) (byte toFile : Bool) (o : Operand) (f : BitVec 13) (k5 : BitVec 5) (k10 : BitVec 10)
    (bit : BitVec 4) (k : BitVec 1),
    exec (.addLit5 b byte o k5) s = .refused .noRule ∧ exec (.addLit10 byte k10 d) s = .refused .noRule ∧
    exec (.bsetInd bit byte o) s = .refused .noRule ∧ exec (.bclrInd bit byte o) s = .refused .noRule ∧
    exec (.btscInd bit o) s = .refused .noRule ∧ exec (.movFile byte toFile f) s = .refused .noRule ∧
    exec (.pwrsav k) s = .refused .powerSaving
end

