-- ==== Sys2Proof/Laws/Decode.lean ====
section
/-! SUPPORT. How fields, flags and bytes of a word built by `place` read back. -/

namespace Sys2Proof

@[simp] theorem field_or (a b : ProgWord) (lo len : Nat) : field (a ||| b) lo len = field a lo len ||| field b lo len := by
  simp [field, BitVec.extractLsb'_or]

@[simp] theorem flag_or (a b : ProgWord) (i : Nat) : flag (a ||| b) i = (flag a i || flag b i) := by simp [flag]

/-- A field that lies above the lowest bit of what was placed. -/
@[simp] theorem field_place_ge {n : Nat} (x : BitVec n) (lo lo' len : Nat) (h : lo' ≤ lo) (h2 : lo + len ≤ 24) :
    field (place lo' x) lo len = x.extractLsb' (lo - lo') len := by
  apply BitVec.eq_of_getLsbD_eq
  intro i hi
  simp only [field, place, BitVec.getLsbD_extractLsb', hi, decide_true, Bool.true_and,
    BitVec.getLsbD_shiftLeft,
    BitVec.getLsbD_setWidth, show lo + i < 24 by omega, show ¬ lo + i < lo' by omega, decide_false, Bool.not_false,
    show lo + i - lo' = lo - lo' + i by omega, show lo - lo' + i < 24 by omega]

/-- A field that lies below what was placed. -/
@[simp] theorem field_place_lt {n : Nat} (x : BitVec n) (lo lo' len : Nat) (h : lo + len ≤ lo') :
    field (place lo' x) lo len = 0 := by
  apply BitVec.eq_of_getLsbD_eq
  intro i hi
  simp [field, place, hi, show lo + i < lo' by omega]

/-- A field above all bits of what was placed. -/
@[simp] theorem extract_zero_of_le {n : Nat} (x : BitVec n) (lo len : Nat) (h : n ≤ lo) : x.extractLsb' lo len = 0#len := by
  apply BitVec.eq_of_getLsbD_eq
  intro i hi
  simp [hi, BitVec.getLsbD_of_ge x (lo + i) (by omega)]

@[simp] theorem flag_place {n : Nat} (x : BitVec n) (lo i : Nat) (h : i < 24) :
    flag (place lo x) i = (decide (lo ≤ i) && x.getLsbD (i - lo)) := by
  by_cases h' : lo ≤ i
  · simp [flag, place, h, h']
  · simp [flag, place, h, h', show i < lo by omega]

@[simp] theorem placeBit_eq (lo : Nat) (b : Bool) : placeBit lo b = place lo (BitVec.ofBool b) := rfl

@[simp] theorem srcCode_eq (o : Operand) : srcCode o = place 4 (modeCode o.mode) ||| place 0 o.reg := rfl

@[simp] theorem dstCode_eq (o : Operand) : dstCode o = place 11 (modeCode o.mode) ||| place 7 o.reg := rfl

@[simp] theorem dspCode_eq (a : Acc) (xd yd : BitVec 2) (x y : Prefetch) :
    dspCode a xd yd x y =
      place 15 (accBit a) ||| place 12 xd ||| place 10 yd ||| place 6 (prefetchCode x) ||| place 2 (prefetchCode y) := rfl

@[simp] theorem accCode_eq (a : Acc) (b : RegNum) (r : BitVec 4) :
    accCode a b r = place 15 (accBit a) ||| place 11 b ||| place 7 r := rfl

@[simp] theorem fileCode_eq (byte toFile : Bool) (f : BitVec 13) :
    fileCode byte toFile f = place 14 (BitVec.ofBool byte) ||| place 13 (BitVec.ofBool toFile) ||| place 0 f := rfl

@[simp] theorem bitFileCode_eq (bit : BitVec 4) (f : BitVec 13) :
    bitFileCode bit f =
      place 13 (bit.extractLsb' 0 3) ||| place 1 (f.extractLsb' 1 12) ||| place 0 (bit.extractLsb' 3 1) := rfl

@[simp] theorem targetLow_eq (t : PcAddr) : targetLow t = place 1 (t.extractLsb' 1 15) := rfl

@[simp] theorem targetHigh_eq (t : PcAddr) : targetHigh t = place 0 (t.extractLsb' 16 7) := rfl

/-- The three bytes of a word make the word (log 3). -/
@[simp] theorem wordOfBytes_fields (w : ProgWord) : wordOfBytes (field w 0 8) (field w 8 8) (field w 16 8) = w := by
  apply BitVec.eq_of_getLsbD_eq
  intro i hi
  rcases Nat.lt_or_ge i 8 with h | h
  · simp [wordOfBytes, place, field, hi, h, show i < 16 by omega]
  · rcases Nat.lt_or_ge i 16 with h' | h'
    · simp [wordOfBytes, place, field, hi, show ¬ i < 8 by omega, h', show i - 8 < 8 by omega,
        show 8 + (i - 8) = i by omega]
    · simp [wordOfBytes, place, field, hi, show ¬ i < 8 by omega, show ¬ i < 16 by omega, show i - 16 < 8 by omega,
        show 16 + (i - 16) = i by omega, show ¬ i - 8 < 8 by omega]

/-- A word whose top four bits are not all 0 is the only word of its instruction. -/
theorem firstWordLength_one (w : ProgWord) (h : field w 20 4 ≠ 0) : firstWordLength w = 1 := by
  have hn : 16 ≤ (field w 16 8).toNat := by
    rcases Nat.lt_or_ge (field w 16 8).toNat 16 with hlt | hge
    · exfalso
      apply h
      have e : field w 20 4 = (field w 16 8).extractLsb' 4 4 := by
        apply BitVec.eq_of_getLsbD_eq
        intro i hi
        simp [field, hi, show 4 + i < 8 by omega, show 16 + (4 + i) = 20 + i by omega]
      rw [e]
      apply BitVec.eq_of_toNat_eq
      simp [BitVec.extractLsb'_toNat, Nat.shiftRight_eq_div_pow]
      omega
    · exact hge
  unfold firstWordLength
  split <;> first | rfl | omega

end Sys2Proof
end

