-- ==== Sys2Proof/Laws/State.lean ====
section
/-! SUPPORT. What each update of the state leaves alone: one lemma for each update and each field, true by definition,
so that no proof unfolds a record update; and how registers read after a register write. -/

namespace Sys2Proof.Machine

variable (s : State)

@[simp] theorem setW_wInit (r : RegNum) (v : Word) : (s.setW r v).wInit = s.wInit := rfl
@[simp] theorem setW_pc (r : RegNum) (v : Word) : (s.setW r v).pc = s.pc := rfl
@[simp] theorem setW_sr (r : RegNum) (v : Word) : (s.setW r v).sr = s.sr := rfl
@[simp] theorem setW_corcon (r : RegNum) (v : Word) : (s.setW r v).corcon = s.corcon := rfl
@[simp] theorem setW_splim (r : RegNum) (v : Word) : (s.setW r v).splim = s.splim := rfl
@[simp] theorem setW_splimArmed (r : RegNum) (v : Word) : (s.setW r v).splimArmed = s.splimArmed := rfl
@[simp] theorem setW_tblpag (r : RegNum) (v : Word) : (s.setW r v).tblpag = s.tblpag := rfl
@[simp] theorem setW_psvpag (r : RegNum) (v : Word) : (s.setW r v).psvpag = s.psvpag := rfl
@[simp] theorem setW_rcount (r : RegNum) (v : Word) : (s.setW r v).rcount = s.rcount := rfl
@[simp] theorem setW_dcount (r : RegNum) (v : Word) : (s.setW r v).dcount = s.dcount := rfl
@[simp] theorem setW_dostart (r : RegNum) (v : Word) : (s.setW r v).dostart = s.dostart := rfl
@[simp] theorem setW_doend (r : RegNum) (v : Word) : (s.setW r v).doend = s.doend := rfl
@[simp] theorem setW_dostartShadow (r : RegNum) (v : Word) : (s.setW r v).dostartShadow = s.dostartShadow := rfl
@[simp] theorem setW_doendShadow (r : RegNum) (v : Word) : (s.setW r v).doendShadow = s.doendShadow := rfl
@[simp] theorem setW_dcountShadow (r : RegNum) (v : Word) : (s.setW r v).dcountShadow = s.dcountShadow := rfl
@[simp] theorem setW_modcon (r : RegNum) (v : Word) : (s.setW r v).modcon = s.modcon := rfl
@[simp] theorem setW_xmodsrt (r : RegNum) (v : Word) : (s.setW r v).xmodsrt = s.xmodsrt := rfl
@[simp] theorem setW_xmodend (r : RegNum) (v : Word) : (s.setW r v).xmodend = s.xmodend := rfl
@[simp] theorem setW_ymodsrt (r : RegNum) (v : Word) : (s.setW r v).ymodsrt = s.ymodsrt := rfl
@[simp] theorem setW_ymodend (r : RegNum) (v : Word) : (s.setW r v).ymodend = s.ymodend := rfl
@[simp] theorem setW_xbrev (r : RegNum) (v : Word) : (s.setW r v).xbrev = s.xbrev := rfl
@[simp] theorem setW_disicnt (r : RegNum) (v : Word) : (s.setW r v).disicnt = s.disicnt := rfl
@[simp] theorem setW_acca (r : RegNum) (v : Word) : (s.setW r v).acca = s.acca := rfl
@[simp] theorem setW_accb (r : RegNum) (v : Word) : (s.setW r v).accb = s.accb := rfl
@[simp] theorem setW_wShadow (r : RegNum) (v : Word) : (s.setW r v).wShadow = s.wShadow := rfl
@[simp] theorem setW_srShadow (r : RegNum) (v : Word) : (s.setW r v).srShadow = s.srShadow := rfl
@[simp] theorem setW_edtPending (r : RegNum) (v : Word) : (s.setW r v).edtPending = s.edtPending := rfl
@[simp] theorem setW_div (r : RegNum) (v : Word) : (s.setW r v).div = s.div := rfl
@[simp] theorem setW_pendingTraps (r : RegNum) (v : Word) : (s.setW r v).pendingTraps = s.pendingTraps := rfl
@[simp] theorem setW_intcon1 (r : RegNum) (v : Word) : (s.setW r v).intcon1 = s.intcon1 := rfl
@[simp] theorem setW_data (r : RegNum) (v : Word) : (s.setW r v).data = s.data := rfl
@[simp] theorem setW_prog (r : RegNum) (v : Word) : (s.setW r v).prog = s.prog := rfl
@[simp] theorem setW_irq (r : RegNum) (v : Word) : (s.setW r v).irq = s.irq := rfl
@[simp] theorem setW_resetReq (r : RegNum) (v : Word) : (s.setW r v).resetReq = s.resetReq := rfl
@[simp] theorem setW_dev (r : RegNum) (v : Word) : (s.setW r v).dev = s.dev := rfl
@[simp] theorem setW_free (r : RegNum) (v : Word) : (s.setW r v).free = s.free := rfl
@[simp] theorem setW_cur (r : RegNum) (v : Word) : (s.setW r v).cur = s.cur := rfl
@[simp] theorem setW_last (r : RegNum) (v : Word) : (s.setW r v).last = s.last := rfl
@[simp] theorem setW_held (r : RegNum) (v : Word) : (s.setW r v).held = s.held := rfl

@[simp] theorem setInit_w (r : RegNum) : (s.setInit r).w = s.w := rfl
@[simp] theorem setInit_pc (r : RegNum) : (s.setInit r).pc = s.pc := rfl
@[simp] theorem setInit_sr (r : RegNum) : (s.setInit r).sr = s.sr := rfl
@[simp] theorem setInit_corcon (r : RegNum) : (s.setInit r).corcon = s.corcon := rfl
@[simp] theorem setInit_splim (r : RegNum) : (s.setInit r).splim = s.splim := rfl
@[simp] theorem setInit_splimArmed (r : RegNum) : (s.setInit r).splimArmed = s.splimArmed := rfl
@[simp] theorem setInit_tblpag (r : RegNum) : (s.setInit r).tblpag = s.tblpag := rfl
@[simp] theorem setInit_psvpag (r : RegNum) : (s.setInit r).psvpag = s.psvpag := rfl
@[simp] theorem setInit_rcount (r : RegNum) : (s.setInit r).rcount = s.rcount := rfl
@[simp] theorem setInit_dcount (r : RegNum) : (s.setInit r).dcount = s.dcount := rfl
@[simp] theorem setInit_dostart (r : RegNum) : (s.setInit r).dostart = s.dostart := rfl
@[simp] theorem setInit_doend (r : RegNum) : (s.setInit r).doend = s.doend := rfl
@[simp] theorem setInit_dostartShadow (r : RegNum) : (s.setInit r).dostartShadow = s.dostartShadow := rfl
@[simp] theorem setInit_doendShadow (r : RegNum) : (s.setInit r).doendShadow = s.doendShadow := rfl
@[simp] theorem setInit_dcountShadow (r : RegNum) : (s.setInit r).dcountShadow = s.dcountShadow := rfl
@[simp] theorem setInit_modcon (r : RegNum) : (s.setInit r).modcon = s.modcon := rfl
@[simp] theorem setInit_xmodsrt (r : RegNum) : (s.setInit r).xmodsrt = s.xmodsrt := rfl
@[simp] theorem setInit_xmodend (r : RegNum) : (s.setInit r).xmodend = s.xmodend := rfl
@[simp] theorem setInit_ymodsrt (r : RegNum) : (s.setInit r).ymodsrt = s.ymodsrt := rfl
@[simp] theorem setInit_ymodend (r : RegNum) : (s.setInit r).ymodend = s.ymodend := rfl
@[simp] theorem setInit_xbrev (r : RegNum) : (s.setInit r).xbrev = s.xbrev := rfl
@[simp] theorem setInit_disicnt (r : RegNum) : (s.setInit r).disicnt = s.disicnt := rfl
@[simp] theorem setInit_acca (r : RegNum) : (s.setInit r).acca = s.acca := rfl
@[simp] theorem setInit_accb (r : RegNum) : (s.setInit r).accb = s.accb := rfl
@[simp] theorem setInit_wShadow (r : RegNum) : (s.setInit r).wShadow = s.wShadow := rfl
@[simp] theorem setInit_srShadow (r : RegNum) : (s.setInit r).srShadow = s.srShadow := rfl
@[simp] theorem setInit_edtPending (r : RegNum) : (s.setInit r).edtPending = s.edtPending := rfl
@[simp] theorem setInit_div (r : RegNum) : (s.setInit r).div = s.div := rfl
@[simp] theorem setInit_pendingTraps (r : RegNum) : (s.setInit r).pendingTraps = s.pendingTraps := rfl
@[simp] theorem setInit_intcon1 (r : RegNum) : (s.setInit r).intcon1 = s.intcon1 := rfl
@[simp] theorem setInit_data (r : RegNum) : (s.setInit r).data = s.data := rfl
@[simp] theorem setInit_prog (r : RegNum) : (s.setInit r).prog = s.prog := rfl
@[simp] theorem setInit_irq (r : RegNum) : (s.setInit r).irq = s.irq := rfl
@[simp] theorem setInit_resetReq (r : RegNum) : (s.setInit r).resetReq = s.resetReq := rfl
@[simp] theorem setInit_dev (r : RegNum) : (s.setInit r).dev = s.dev := rfl
@[simp] theorem setInit_free (r : RegNum) : (s.setInit r).free = s.free := rfl
@[simp] theorem setInit_cur (r : RegNum) : (s.setInit r).cur = s.cur := rfl
@[simp] theorem setInit_last (r : RegNum) : (s.setInit r).last = s.last := rfl
@[simp] theorem setInit_held (r : RegNum) : (s.setInit r).held = s.held := rfl

@[simp] theorem markWrote_w (r : RegNum) : (s.markWrote r).w = s.w := rfl
@[simp] theorem markWrote_wInit (r : RegNum) : (s.markWrote r).wInit = s.wInit := rfl
@[simp] theorem markWrote_pc (r : RegNum) : (s.markWrote r).pc = s.pc := rfl
@[simp] theorem markWrote_sr (r : RegNum) : (s.markWrote r).sr = s.sr := rfl
@[simp] theorem markWrote_corcon (r : RegNum) : (s.markWrote r).corcon = s.corcon := rfl
@[simp] theorem markWrote_splim (r : RegNum) : (s.markWrote r).splim = s.splim := rfl
@[simp] theorem markWrote_splimArmed (r : RegNum) : (s.markWrote r).splimArmed = s.splimArmed := rfl
@[simp] theorem markWrote_tblpag (r : RegNum) : (s.markWrote r).tblpag = s.tblpag := rfl
@[simp] theorem markWrote_psvpag (r : RegNum) : (s.markWrote r).psvpag = s.psvpag := rfl
@[simp] theorem markWrote_rcount (r : RegNum) : (s.markWrote r).rcount = s.rcount := rfl
@[simp] theorem markWrote_dcount (r : RegNum) : (s.markWrote r).dcount = s.dcount := rfl
@[simp] theorem markWrote_dostart (r : RegNum) : (s.markWrote r).dostart = s.dostart := rfl
@[simp] theorem markWrote_doend (r : RegNum) : (s.markWrote r).doend = s.doend := rfl
@[simp] theorem markWrote_dostartShadow (r : RegNum) : (s.markWrote r).dostartShadow = s.dostartShadow := rfl
@[simp] theorem markWrote_doendShadow (r : RegNum) : (s.markWrote r).doendShadow = s.doendShadow := rfl
@[simp] theorem markWrote_dcountShadow (r : RegNum) : (s.markWrote r).dcountShadow = s.dcountShadow := rfl
@[simp] theorem markWrote_modcon (r : RegNum) : (s.markWrote r).modcon = s.modcon := rfl
@[simp] theorem markWrote_xmodsrt (r : RegNum) : (s.markWrote r).xmodsrt = s.xmodsrt := rfl
@[simp] theorem markWrote_xmodend (r : RegNum) : (s.markWrote r).xmodend = s.xmodend := rfl
@[simp] theorem markWrote_ymodsrt (r : RegNum) : (s.markWrote r).ymodsrt = s.ymodsrt := rfl
@[simp] theorem markWrote_ymodend (r : RegNum) : (s.markWrote r).ymodend = s.ymodend := rfl
@[simp] theorem markWrote_xbrev (r : RegNum) : (s.markWrote r).xbrev = s.xbrev := rfl
@[simp] theorem markWrote_disicnt (r : RegNum) : (s.markWrote r).disicnt = s.disicnt := rfl
@[simp] theorem markWrote_acca (r : RegNum) : (s.markWrote r).acca = s.acca := rfl
@[simp] theorem markWrote_accb (r : RegNum) : (s.markWrote r).accb = s.accb := rfl
@[simp] theorem markWrote_wShadow (r : RegNum) : (s.markWrote r).wShadow = s.wShadow := rfl
@[simp] theorem markWrote_srShadow (r : RegNum) : (s.markWrote r).srShadow = s.srShadow := rfl
@[simp] theorem markWrote_edtPending (r : RegNum) : (s.markWrote r).edtPending = s.edtPending := rfl
@[simp] theorem markWrote_div (r : RegNum) : (s.markWrote r).div = s.div := rfl
@[simp] theorem markWrote_pendingTraps (r : RegNum) : (s.markWrote r).pendingTraps = s.pendingTraps := rfl
@[simp] theorem markWrote_intcon1 (r : RegNum) : (s.markWrote r).intcon1 = s.intcon1 := rfl
@[simp] theorem markWrote_data (r : RegNum) : (s.markWrote r).data = s.data := rfl
@[simp] theorem markWrote_prog (r : RegNum) : (s.markWrote r).prog = s.prog := rfl
@[simp] theorem markWrote_irq (r : RegNum) : (s.markWrote r).irq = s.irq := rfl
@[simp] theorem markWrote_resetReq (r : RegNum) : (s.markWrote r).resetReq = s.resetReq := rfl
@[simp] theorem markWrote_dev (r : RegNum) : (s.markWrote r).dev = s.dev := rfl
@[simp] theorem markWrote_free (r : RegNum) : (s.markWrote r).free = s.free := rfl
@[simp] theorem markWrote_last (r : RegNum) : (s.markWrote r).last = s.last := rfl
@[simp] theorem markWrote_held (r : RegNum) : (s.markWrote r).held = s.held := rfl

@[simp] theorem markSrcEa_w (r : RegNum) : (s.markSrcEa r).w = s.w := rfl
@[simp] theorem markSrcEa_wInit (r : RegNum) : (s.markSrcEa r).wInit = s.wInit := rfl
@[simp] theorem markSrcEa_pc (r : RegNum) : (s.markSrcEa r).pc = s.pc := rfl
@[simp] theorem markSrcEa_sr (r : RegNum) : (s.markSrcEa r).sr = s.sr := rfl
@[simp] theorem markSrcEa_corcon (r : RegNum) : (s.markSrcEa r).corcon = s.corcon := rfl
@[simp] theorem markSrcEa_splim (r : RegNum) : (s.markSrcEa r).splim = s.splim := rfl
@[simp] theorem markSrcEa_splimArmed (r : RegNum) : (s.markSrcEa r).splimArmed = s.splimArmed := rfl
@[simp] theorem markSrcEa_tblpag (r : RegNum) : (s.markSrcEa r).tblpag = s.tblpag := rfl
@[simp] theorem markSrcEa_psvpag (r : RegNum) : (s.markSrcEa r).psvpag = s.psvpag := rfl
@[simp] theorem markSrcEa_rcount (r : RegNum) : (s.markSrcEa r).rcount = s.rcount := rfl
@[simp] theorem markSrcEa_dcount (r : RegNum) : (s.markSrcEa r).dcount = s.dcount := rfl
@[simp] theorem markSrcEa_dostart (r : RegNum) : (s.markSrcEa r).dostart = s.dostart := rfl
@[simp] theorem markSrcEa_doend (r : RegNum) : (s.markSrcEa r).doend = s.doend := rfl
@[simp] theorem markSrcEa_dostartShadow (r : RegNum) : (s.markSrcEa r).dostartShadow = s.dostartShadow := rfl
@[simp] theorem markSrcEa_doendShadow (r : RegNum) : (s.markSrcEa r).doendShadow = s.doendShadow := rfl
@[simp] theorem markSrcEa_dcountShadow (r : RegNum) : (s.markSrcEa r).dcountShadow = s.dcountShadow := rfl
@[simp] theorem markSrcEa_modcon (r : RegNum) : (s.markSrcEa r).modcon = s.modcon := rfl
@[simp] theorem markSrcEa_xmodsrt (r : RegNum) : (s.markSrcEa r).xmodsrt = s.xmodsrt := rfl
@[simp] theorem markSrcEa_xmodend (r : RegNum) : (s.markSrcEa r).xmodend = s.xmodend := rfl
@[simp] theorem markSrcEa_ymodsrt (r : RegNum) : (s.markSrcEa r).ymodsrt = s.ymodsrt := rfl
@[simp] theorem markSrcEa_ymodend (r : RegNum) : (s.markSrcEa r).ymodend = s.ymodend := rfl
@[simp] theorem markSrcEa_xbrev (r : RegNum) : (s.markSrcEa r).xbrev = s.xbrev := rfl
@[simp] theorem markSrcEa_disicnt (r : RegNum) : (s.markSrcEa r).disicnt = s.disicnt := rfl
@[simp] theorem markSrcEa_acca (r : RegNum) : (s.markSrcEa r).acca = s.acca := rfl
@[simp] theorem markSrcEa_accb (r : RegNum) : (s.markSrcEa r).accb = s.accb := rfl
@[simp] theorem markSrcEa_wShadow (r : RegNum) : (s.markSrcEa r).wShadow = s.wShadow := rfl
@[simp] theorem markSrcEa_srShadow (r : RegNum) : (s.markSrcEa r).srShadow = s.srShadow := rfl
@[simp] theorem markSrcEa_edtPending (r : RegNum) : (s.markSrcEa r).edtPending = s.edtPending := rfl
@[simp] theorem markSrcEa_div (r : RegNum) : (s.markSrcEa r).div = s.div := rfl
@[simp] theorem markSrcEa_pendingTraps (r : RegNum) : (s.markSrcEa r).pendingTraps = s.pendingTraps := rfl
@[simp] theorem markSrcEa_intcon1 (r : RegNum) : (s.markSrcEa r).intcon1 = s.intcon1 := rfl
@[simp] theorem markSrcEa_data (r : RegNum) : (s.markSrcEa r).data = s.data := rfl
@[simp] theorem markSrcEa_prog (r : RegNum) : (s.markSrcEa r).prog = s.prog := rfl
@[simp] theorem markSrcEa_irq (r : RegNum) : (s.markSrcEa r).irq = s.irq := rfl
@[simp] theorem markSrcEa_resetReq (r : RegNum) : (s.markSrcEa r).resetReq = s.resetReq := rfl
@[simp] theorem markSrcEa_dev (r : RegNum) : (s.markSrcEa r).dev = s.dev := rfl
@[simp] theorem markSrcEa_free (r : RegNum) : (s.markSrcEa r).free = s.free := rfl
@[simp] theorem markSrcEa_last (r : RegNum) : (s.markSrcEa r).last = s.last := rfl
@[simp] theorem markSrcEa_held (r : RegNum) : (s.markSrcEa r).held = s.held := rfl

@[simp] theorem mark_w (f : Recent → Recent) : (s.mark f).w = s.w := rfl
@[simp] theorem mark_wInit (f : Recent → Recent) : (s.mark f).wInit = s.wInit := rfl
@[simp] theorem mark_pc (f : Recent → Recent) : (s.mark f).pc = s.pc := rfl
@[simp] theorem mark_sr (f : Recent → Recent) : (s.mark f).sr = s.sr := rfl
@[simp] theorem mark_corcon (f : Recent → Recent) : (s.mark f).corcon = s.corcon := rfl
@[simp] theorem mark_splim (f : Recent → Recent) : (s.mark f).splim = s.splim := rfl
@[simp] theorem mark_splimArmed (f : Recent → Recent) : (s.mark f).splimArmed = s.splimArmed := rfl
@[simp] theorem mark_tblpag (f : Recent → Recent) : (s.mark f).tblpag = s.tblpag := rfl
@[simp] theorem mark_psvpag (f : Recent → Recent) : (s.mark f).psvpag = s.psvpag := rfl
@[simp] theorem mark_rcount (f : Recent → Recent) : (s.mark f).rcount = s.rcount := rfl
@[simp] theorem mark_dcount (f : Recent → Recent) : (s.mark f).dcount = s.dcount := rfl
@[simp] theorem mark_dostart (f : Recent → Recent) : (s.mark f).dostart = s.dostart := rfl
@[simp] theorem mark_doend (f : Recent → Recent) : (s.mark f).doend = s.doend := rfl
@[simp] theorem mark_dostartShadow (f : Recent → Recent) : (s.mark f).dostartShadow = s.dostartShadow := rfl
@[simp] theorem mark_doendShadow (f : Recent → Recent) : (s.mark f).doendShadow = s.doendShadow := rfl
@[simp] theorem mark_dcountShadow (f : Recent → Recent) : (s.mark f).dcountShadow = s.dcountShadow := rfl
@[simp] theorem mark_modcon (f : Recent → Recent) : (s.mark f).modcon = s.modcon := rfl
@[simp] theorem mark_xmodsrt (f : Recent → Recent) : (s.mark f).xmodsrt = s.xmodsrt := rfl
@[simp] theorem mark_xmodend (f : Recent → Recent) : (s.mark f).xmodend = s.xmodend := rfl
@[simp] theorem mark_ymodsrt (f : Recent → Recent) : (s.mark f).ymodsrt = s.ymodsrt := rfl
@[simp] theorem mark_ymodend (f : Recent → Recent) : (s.mark f).ymodend = s.ymodend := rfl
@[simp] theorem mark_xbrev (f : Recent → Recent) : (s.mark f).xbrev = s.xbrev := rfl
@[simp] theorem mark_disicnt (f : Recent → Recent) : (s.mark f).disicnt = s.disicnt := rfl
@[simp] theorem mark_acca (f : Recent → Recent) : (s.mark f).acca = s.acca := rfl
@[simp] theorem mark_accb (f : Recent → Recent) : (s.mark f).accb = s.accb := rfl
@[simp] theorem mark_wShadow (f : Recent → Recent) : (s.mark f).wShadow = s.wShadow := rfl
@[simp] theorem mark_srShadow (f : Recent → Recent) : (s.mark f).srShadow = s.srShadow := rfl
@[simp] theorem mark_edtPending (f : Recent → Recent) : (s.mark f).edtPending = s.edtPending := rfl
@[simp] theorem mark_div (f : Recent → Recent) : (s.mark f).div = s.div := rfl
@[simp] theorem mark_pendingTraps (f : Recent → Recent) : (s.mark f).pendingTraps = s.pendingTraps := rfl
@[simp] theorem mark_intcon1 (f : Recent → Recent) : (s.mark f).intcon1 = s.intcon1 := rfl
@[simp] theorem mark_data (f : Recent → Recent) : (s.mark f).data = s.data := rfl
@[simp] theorem mark_prog (f : Recent → Recent) : (s.mark f).prog = s.prog := rfl
@[simp] theorem mark_irq (f : Recent → Recent) : (s.mark f).irq = s.irq := rfl
@[simp] theorem mark_resetReq (f : Recent → Recent) : (s.mark f).resetReq = s.resetReq := rfl
@[simp] theorem mark_dev (f : Recent → Recent) : (s.mark f).dev = s.dev := rfl
@[simp] theorem mark_free (f : Recent → Recent) : (s.mark f).free = s.free := rfl
@[simp] theorem mark_last (f : Recent → Recent) : (s.mark f).last = s.last := rfl
@[simp] theorem mark_held (f : Recent → Recent) : (s.mark f).held = s.held := rfl

@[simp] theorem markLoop_w : s.markLoop.w = s.w := rfl
@[simp] theorem markLoop_wInit : s.markLoop.wInit = s.wInit := rfl
@[simp] theorem markLoop_pc : s.markLoop.pc = s.pc := rfl
@[simp] theorem markLoop_sr : s.markLoop.sr = s.sr := rfl
@[simp] theorem markLoop_corcon : s.markLoop.corcon = s.corcon := rfl
@[simp] theorem markLoop_splim : s.markLoop.splim = s.splim := rfl
@[simp] theorem markLoop_splimArmed : s.markLoop.splimArmed = s.splimArmed := rfl
@[simp] theorem markLoop_tblpag : s.markLoop.tblpag = s.tblpag := rfl
@[simp] theorem markLoop_psvpag : s.markLoop.psvpag = s.psvpag := rfl
@[simp] theorem markLoop_rcount : s.markLoop.rcount = s.rcount := rfl
@[simp] theorem markLoop_dcount : s.markLoop.dcount = s.dcount := rfl
@[simp] theorem markLoop_dostart : s.markLoop.dostart = s.dostart := rfl
@[simp] theorem markLoop_doend : s.markLoop.doend = s.doend := rfl
@[simp] theorem markLoop_dostartShadow : s.markLoop.dostartShadow = s.dostartShadow := rfl
@[simp] theorem markLoop_doendShadow : s.markLoop.doendShadow = s.doendShadow := rfl
@[simp] theorem markLoop_dcountShadow : s.markLoop.dcountShadow = s.dcountShadow := rfl
@[simp] theorem markLoop_modcon : s.markLoop.modcon = s.modcon := rfl
@[simp] theorem markLoop_xmodsrt : s.markLoop.xmodsrt = s.xmodsrt := rfl
@[simp] theorem markLoop_xmodend : s.markLoop.xmodend = s.xmodend := rfl
@[simp] theorem markLoop_ymodsrt : s.markLoop.ymodsrt = s.ymodsrt := rfl
@[simp] theorem markLoop_ymodend : s.markLoop.ymodend = s.ymodend := rfl
@[simp] theorem markLoop_xbrev : s.markLoop.xbrev = s.xbrev := rfl
@[simp] theorem markLoop_disicnt : s.markLoop.disicnt = s.disicnt := rfl
@[simp] theorem markLoop_acca : s.markLoop.acca = s.acca := rfl
@[simp] theorem markLoop_accb : s.markLoop.accb = s.accb := rfl
@[simp] theorem markLoop_wShadow : s.markLoop.wShadow = s.wShadow := rfl
@[simp] theorem markLoop_srShadow : s.markLoop.srShadow = s.srShadow := rfl
@[simp] theorem markLoop_edtPending : s.markLoop.edtPending = s.edtPending := rfl
@[simp] theorem markLoop_div : s.markLoop.div = s.div := rfl
@[simp] theorem markLoop_pendingTraps : s.markLoop.pendingTraps = s.pendingTraps := rfl
@[simp] theorem markLoop_intcon1 : s.markLoop.intcon1 = s.intcon1 := rfl
@[simp] theorem markLoop_data : s.markLoop.data = s.data := rfl
@[simp] theorem markLoop_prog : s.markLoop.prog = s.prog := rfl
@[simp] theorem markLoop_irq : s.markLoop.irq = s.irq := rfl
@[simp] theorem markLoop_resetReq : s.markLoop.resetReq = s.resetReq := rfl
@[simp] theorem markLoop_dev : s.markLoop.dev = s.dev := rfl
@[simp] theorem markLoop_free : s.markLoop.free = s.free := rfl
@[simp] theorem markLoop_last : s.markLoop.last = s.last := rfl
@[simp] theorem markLoop_held : s.markLoop.held = s.held := rfl

@[simp] theorem putWord_pc (r : RegNum) (v : Word) : (s.putWord r v).pc = s.pc := rfl
@[simp] theorem putWord_sr (r : RegNum) (v : Word) : (s.putWord r v).sr = s.sr := rfl
@[simp] theorem putWord_corcon (r : RegNum) (v : Word) : (s.putWord r v).corcon = s.corcon := rfl
@[simp] theorem putWord_splim (r : RegNum) (v : Word) : (s.putWord r v).splim = s.splim := rfl
@[simp] theorem putWord_splimArmed (r : RegNum) (v : Word) : (s.putWord r v).splimArmed = s.splimArmed := rfl
@[simp] theorem putWord_tblpag (r : RegNum) (v : Word) : (s.putWord r v).tblpag = s.tblpag := rfl
@[simp] theorem putWord_psvpag (r : RegNum) (v : Word) : (s.putWord r v).psvpag = s.psvpag := rfl
@[simp] theorem putWord_rcount (r : RegNum) (v : Word) : (s.putWord r v).rcount = s.rcount := rfl
@[simp] theorem putWord_dcount (r : RegNum) (v : Word) : (s.putWord r v).dcount = s.dcount := rfl
@[simp] theorem putWord_dostart (r : RegNum) (v : Word) : (s.putWord r v).dostart = s.dostart := rfl
@[simp] theorem putWord_doend (r : RegNum) (v : Word) : (s.putWord r v).doend = s.doend := rfl
@[simp] theorem putWord_dostartShadow (r : RegNum) (v : Word) : (s.putWord r v).dostartShadow = s.dostartShadow := rfl
@[simp] theorem putWord_doendShadow (r : RegNum) (v : Word) : (s.putWord r v).doendShadow = s.doendShadow := rfl
@[simp] theorem putWord_dcountShadow (r : RegNum) (v : Word) : (s.putWord r v).dcountShadow = s.dcountShadow := rfl
@[simp] theorem putWord_modcon (r : RegNum) (v : Word) : (s.putWord r v).modcon = s.modcon := rfl
@[simp] theorem putWord_xmodsrt (r : RegNum) (v : Word) : (s.putWord r v).xmodsrt = s.xmodsrt := rfl
@[simp] theorem putWord_xmodend (r : RegNum) (v : Word) : (s.putWord r v).xmodend = s.xmodend := rfl
@[simp] theorem putWord_ymodsrt (r : RegNum) (v : Word) : (s.putWord r v).ymodsrt = s.ymodsrt := rfl
@[simp] theorem putWord_ymodend (r : RegNum) (v : Word) : (s.putWord r v).ymodend = s.ymodend := rfl
@[simp] theorem putWord_xbrev (r : RegNum) (v : Word) : (s.putWord r v).xbrev = s.xbrev := rfl
@[simp] theorem putWord_disicnt (r : RegNum) (v : Word) : (s.putWord r v).disicnt = s.disicnt := rfl
@[simp] theorem putWord_acca (r : RegNum) (v : Word) : (s.putWord r v).acca = s.acca := rfl
@[simp] theorem putWord_accb (r : RegNum) (v : Word) : (s.putWord r v).accb = s.accb := rfl
@[simp] theorem putWord_wShadow (r : RegNum) (v : Word) : (s.putWord r v).wShadow = s.wShadow := rfl
@[simp] theorem putWord_srShadow (r : RegNum) (v : Word) : (s.putWord r v).srShadow = s.srShadow := rfl
@[simp] theorem putWord_edtPending (r : RegNum) (v : Word) : (s.putWord r v).edtPending = s.edtPending := rfl
@[simp] theorem putWord_div (r : RegNum) (v : Word) : (s.putWord r v).div = s.div := rfl
@[simp] theorem putWord_pendingTraps (r : RegNum) (v : Word) : (s.putWord r v).pendingTraps = s.pendingTraps := rfl
@[simp] theorem putWord_intcon1 (r : RegNum) (v : Word) : (s.putWord r v).intcon1 = s.intcon1 := rfl
@[simp] theorem putWord_data (r : RegNum) (v : Word) : (s.putWord r v).data = s.data := rfl
@[simp] theorem putWord_prog (r : RegNum) (v : Word) : (s.putWord r v).prog = s.prog := rfl
@[simp] theorem putWord_irq (r : RegNum) (v : Word) : (s.putWord r v).irq = s.irq := rfl
@[simp] theorem putWord_resetReq (r : RegNum) (v : Word) : (s.putWord r v).resetReq = s.resetReq := rfl
@[simp] theorem putWord_dev (r : RegNum) (v : Word) : (s.putWord r v).dev = s.dev := rfl
@[simp] theorem putWord_free (r : RegNum) (v : Word) : (s.putWord r v).free = s.free := rfl
@[simp] theorem putWord_last (r : RegNum) (v : Word) : (s.putWord r v).last = s.last := rfl
@[simp] theorem putWord_held (r : RegNum) (v : Word) : (s.putWord r v).held = s.held := rfl

@[simp] theorem putByte_wInit (r : RegNum) (v : Byte) : (s.putByte r v).wInit = s.wInit := rfl
@[simp] theorem putByte_pc (r : RegNum) (v : Byte) : (s.putByte r v).pc = s.pc := rfl
@[simp] theorem putByte_sr (r : RegNum) (v : Byte) : (s.putByte r v).sr = s.sr := rfl
@[simp] theorem putByte_corcon (r : RegNum) (v : Byte) : (s.putByte r v).corcon = s.corcon := rfl
@[simp] theorem putByte_splim (r : RegNum) (v : Byte) : (s.putByte r v).splim = s.splim := rfl
@[simp] theorem putByte_splimArmed (r : RegNum) (v : Byte) : (s.putByte r v).splimArmed = s.splimArmed := rfl
@[simp] theorem putByte_tblpag (r : RegNum) (v : Byte) : (s.putByte r v).tblpag = s.tblpag := rfl
@[simp] theorem putByte_psvpag (r : RegNum) (v : Byte) : (s.putByte r v).psvpag = s.psvpag := rfl
@[simp] theorem putByte_rcount (r : RegNum) (v : Byte) : (s.putByte r v).rcount = s.rcount := rfl
@[simp] theorem putByte_dcount (r : RegNum) (v : Byte) : (s.putByte r v).dcount = s.dcount := rfl
@[simp] theorem putByte_dostart (r : RegNum) (v : Byte) : (s.putByte r v).dostart = s.dostart := rfl
@[simp] theorem putByte_doend (r : RegNum) (v : Byte) : (s.putByte r v).doend = s.doend := rfl
@[simp] theorem putByte_dostartShadow (r : RegNum) (v : Byte) : (s.putByte r v).dostartShadow = s.dostartShadow := rfl
@[simp] theorem putByte_doendShadow (r : RegNum) (v : Byte) : (s.putByte r v).doendShadow = s.doendShadow := rfl
@[simp] theorem putByte_dcountShadow (r : RegNum) (v : Byte) : (s.putByte r v).dcountShadow = s.dcountShadow := rfl
@[simp] theorem putByte_modcon (r : RegNum) (v : Byte) : (s.putByte r v).modcon = s.modcon := rfl
@[simp] theorem putByte_xmodsrt (r : RegNum) (v : Byte) : (s.putByte r v).xmodsrt = s.xmodsrt := rfl
@[simp] theorem putByte_xmodend (r : RegNum) (v : Byte) : (s.putByte r v).xmodend = s.xmodend := rfl
@[simp] theorem putByte_ymodsrt (r : RegNum) (v : Byte) : (s.putByte r v).ymodsrt = s.ymodsrt := rfl
@[simp] theorem putByte_ymodend (r : RegNum) (v : Byte) : (s.putByte r v).ymodend = s.ymodend := rfl
@[simp] theorem putByte_xbrev (r : RegNum) (v : Byte) : (s.putByte r v).xbrev = s.xbrev := rfl
@[simp] theorem putByte_disicnt (r : RegNum) (v : Byte) : (s.putByte r v).disicnt = s.disicnt := rfl
@[simp] theorem putByte_acca (r : RegNum) (v : Byte) : (s.putByte r v).acca = s.acca := rfl
@[simp] theorem putByte_accb (r : RegNum) (v : Byte) : (s.putByte r v).accb = s.accb := rfl
@[simp] theorem putByte_wShadow (r : RegNum) (v : Byte) : (s.putByte r v).wShadow = s.wShadow := rfl
@[simp] theorem putByte_srShadow (r : RegNum) (v : Byte) : (s.putByte r v).srShadow = s.srShadow := rfl
@[simp] theorem putByte_edtPending (r : RegNum) (v : Byte) : (s.putByte r v).edtPending = s.edtPending := rfl
@[simp] theorem putByte_div (r : RegNum) (v : Byte) : (s.putByte r v).div = s.div := rfl
@[simp] theorem putByte_pendingTraps (r : RegNum) (v : Byte) : (s.putByte r v).pendingTraps = s.pendingTraps := rfl
@[simp] theorem putByte_intcon1 (r : RegNum) (v : Byte) : (s.putByte r v).intcon1 = s.intcon1 := rfl
@[simp] theorem putByte_data (r : RegNum) (v : Byte) : (s.putByte r v).data = s.data := rfl
@[simp] theorem putByte_prog (r : RegNum) (v : Byte) : (s.putByte r v).prog = s.prog := rfl
@[simp] theorem putByte_irq (r : RegNum) (v : Byte) : (s.putByte r v).irq = s.irq := rfl
@[simp] theorem putByte_resetReq (r : RegNum) (v : Byte) : (s.putByte r v).resetReq = s.resetReq := rfl
@[simp] theorem putByte_dev (r : RegNum) (v : Byte) : (s.putByte r v).dev = s.dev := rfl
@[simp] theorem putByte_free (r : RegNum) (v : Byte) : (s.putByte r v).free = s.free := rfl
@[simp] theorem putByte_last (r : RegNum) (v : Byte) : (s.putByte r v).last = s.last := rfl
@[simp] theorem putByte_held (r : RegNum) (v : Byte) : (s.putByte r v).held = s.held := rfl

@[simp] theorem pend_w (t : Trap) : (s.pend t).w = s.w := rfl
@[simp] theorem pend_wInit (t : Trap) : (s.pend t).wInit = s.wInit := rfl
@[simp] theorem pend_pc (t : Trap) : (s.pend t).pc = s.pc := rfl
@[simp] theorem pend_sr (t : Trap) : (s.pend t).sr = s.sr := rfl
@[simp] theorem pend_corcon (t : Trap) : (s.pend t).corcon = s.corcon := rfl
@[simp] theorem pend_splim (t : Trap) : (s.pend t).splim = s.splim := rfl
@[simp] theorem pend_splimArmed (t : Trap) : (s.pend t).splimArmed = s.splimArmed := rfl
@[simp] theorem pend_tblpag (t : Trap) : (s.pend t).tblpag = s.tblpag := rfl
@[simp] theorem pend_psvpag (t : Trap) : (s.pend t).psvpag = s.psvpag := rfl
@[simp] theorem pend_rcount (t : Trap) : (s.pend t).rcount = s.rcount := rfl
@[simp] theorem pend_dcount (t : Trap) : (s.pend t).dcount = s.dcount := rfl
@[simp] theorem pend_dostart (t : Trap) : (s.pend t).dostart = s.dostart := rfl
@[simp] theorem pend_doend (t : Trap) : (s.pend t).doend = s.doend := rfl
@[simp] theorem pend_dostartShadow (t : Trap) : (s.pend t).dostartShadow = s.dostartShadow := rfl
@[simp] theorem pend_doendShadow (t : Trap) : (s.pend t).doendShadow = s.doendShadow := rfl
@[simp] theorem pend_dcountShadow (t : Trap) : (s.pend t).dcountShadow = s.dcountShadow := rfl
@[simp] theorem pend_modcon (t : Trap) : (s.pend t).modcon = s.modcon := rfl
@[simp] theorem pend_xmodsrt (t : Trap) : (s.pend t).xmodsrt = s.xmodsrt := rfl
@[simp] theorem pend_xmodend (t : Trap) : (s.pend t).xmodend = s.xmodend := rfl
@[simp] theorem pend_ymodsrt (t : Trap) : (s.pend t).ymodsrt = s.ymodsrt := rfl
@[simp] theorem pend_ymodend (t : Trap) : (s.pend t).ymodend = s.ymodend := rfl
@[simp] theorem pend_xbrev (t : Trap) : (s.pend t).xbrev = s.xbrev := rfl
@[simp] theorem pend_disicnt (t : Trap) : (s.pend t).disicnt = s.disicnt := rfl
@[simp] theorem pend_acca (t : Trap) : (s.pend t).acca = s.acca := rfl
@[simp] theorem pend_accb (t : Trap) : (s.pend t).accb = s.accb := rfl
@[simp] theorem pend_wShadow (t : Trap) : (s.pend t).wShadow = s.wShadow := rfl
@[simp] theorem pend_srShadow (t : Trap) : (s.pend t).srShadow = s.srShadow := rfl
@[simp] theorem pend_edtPending (t : Trap) : (s.pend t).edtPending = s.edtPending := rfl
@[simp] theorem pend_div (t : Trap) : (s.pend t).div = s.div := rfl
@[simp] theorem pend_intcon1 (t : Trap) : (s.pend t).intcon1 = s.intcon1 := rfl
@[simp] theorem pend_data (t : Trap) : (s.pend t).data = s.data := rfl
@[simp] theorem pend_prog (t : Trap) : (s.pend t).prog = s.prog := rfl
@[simp] theorem pend_irq (t : Trap) : (s.pend t).irq = s.irq := rfl
@[simp] theorem pend_resetReq (t : Trap) : (s.pend t).resetReq = s.resetReq := rfl
@[simp] theorem pend_dev (t : Trap) : (s.pend t).dev = s.dev := rfl
@[simp] theorem pend_free (t : Trap) : (s.pend t).free = s.free := rfl
@[simp] theorem pend_cur (t : Trap) : (s.pend t).cur = s.cur := rfl
@[simp] theorem pend_last (t : Trap) : (s.pend t).last = s.last := rfl
@[simp] theorem pend_held (t : Trap) : (s.pend t).held = s.held := rfl

@[simp] theorem setAcc_w (a : Acc) (v : AccWord) : (s.setAcc a v).w = s.w := rfl
@[simp] theorem setAcc_wInit (a : Acc) (v : AccWord) : (s.setAcc a v).wInit = s.wInit := rfl
@[simp] theorem setAcc_pc (a : Acc) (v : AccWord) : (s.setAcc a v).pc = s.pc := rfl
@[simp] theorem setAcc_sr (a : Acc) (v : AccWord) : (s.setAcc a v).sr = s.sr := rfl
@[simp] theorem setAcc_corcon (a : Acc) (v : AccWord) : (s.setAcc a v).corcon = s.corcon := rfl
@[simp] theorem setAcc_splim (a : Acc) (v : AccWord) : (s.setAcc a v).splim = s.splim := rfl
@[simp] theorem setAcc_splimArmed (a : Acc) (v : AccWord) : (s.setAcc a v).splimArmed = s.splimArmed := rfl
@[simp] theorem setAcc_tblpag (a : Acc) (v : AccWord) : (s.setAcc a v).tblpag = s.tblpag := rfl
@[simp] theorem setAcc_psvpag (a : Acc) (v : AccWord) : (s.setAcc a v).psvpag = s.psvpag := rfl
@[simp] theorem setAcc_rcount (a : Acc) (v : AccWord) : (s.setAcc a v).rcount = s.rcount := rfl
@[simp] theorem setAcc_dcount (a : Acc) (v : AccWord) : (s.setAcc a v).dcount = s.dcount := rfl
@[simp] theorem setAcc_dostart (a : Acc) (v : AccWord) : (s.setAcc a v).dostart = s.dostart := rfl
@[simp] theorem setAcc_doend (a : Acc) (v : AccWord) : (s.setAcc a v).doend = s.doend := rfl
@[simp] theorem setAcc_dostartShadow (a : Acc) (v : AccWord) : (s.setAcc a v).dostartShadow = s.dostartShadow := rfl
@[simp] theorem setAcc_doendShadow (a : Acc) (v : AccWord) : (s.setAcc a v).doendShadow = s.doendShadow := rfl
@[simp] theorem setAcc_dcountShadow (a : Acc) (v : AccWord) : (s.setAcc a v).dcountShadow = s.dcountShadow := rfl
@[simp] theorem setAcc_modcon (a : Acc) (v : AccWord) : (s.setAcc a v).modcon = s.modcon := rfl
@[simp] theorem setAcc_xmodsrt (a : Acc) (v : AccWord) : (s.setAcc a v).xmodsrt = s.xmodsrt := rfl
@[simp] theorem setAcc_xmodend (a : Acc) (v : AccWord) : (s.setAcc a v).xmodend = s.xmodend := rfl
@[simp] theorem setAcc_ymodsrt (a : Acc) (v : AccWord) : (s.setAcc a v).ymodsrt = s.ymodsrt := rfl
@[simp] theorem setAcc_ymodend (a : Acc) (v : AccWord) : (s.setAcc a v).ymodend = s.ymodend := rfl
@[simp] theorem setAcc_xbrev (a : Acc) (v : AccWord) : (s.setAcc a v).xbrev = s.xbrev := rfl
@[simp] theorem setAcc_disicnt (a : Acc) (v : AccWord) : (s.setAcc a v).disicnt = s.disicnt := rfl
@[simp] theorem setAcc_wShadow (a : Acc) (v : AccWord) : (s.setAcc a v).wShadow = s.wShadow := rfl
@[simp] theorem setAcc_srShadow (a : Acc) (v : AccWord) : (s.setAcc a v).srShadow = s.srShadow := rfl
@[simp] theorem setAcc_edtPending (a : Acc) (v : AccWord) : (s.setAcc a v).edtPending = s.edtPending := rfl
@[simp] theorem setAcc_div (a : Acc) (v : AccWord) : (s.setAcc a v).div = s.div := rfl
@[simp] theorem setAcc_pendingTraps (a : Acc) (v : AccWord) : (s.setAcc a v).pendingTraps = s.pendingTraps := rfl
@[simp] theorem setAcc_intcon1 (a : Acc) (v : AccWord) : (s.setAcc a v).intcon1 = s.intcon1 := rfl
@[simp] theorem setAcc_data (a : Acc) (v : AccWord) : (s.setAcc a v).data = s.data := rfl
@[simp] theorem setAcc_prog (a : Acc) (v : AccWord) : (s.setAcc a v).prog = s.prog := rfl
@[simp] theorem setAcc_irq (a : Acc) (v : AccWord) : (s.setAcc a v).irq = s.irq := rfl
@[simp] theorem setAcc_resetReq (a : Acc) (v : AccWord) : (s.setAcc a v).resetReq = s.resetReq := rfl
@[simp] theorem setAcc_dev (a : Acc) (v : AccWord) : (s.setAcc a v).dev = s.dev := rfl
@[simp] theorem setAcc_free (a : Acc) (v : AccWord) : (s.setAcc a v).free = s.free := rfl
@[simp] theorem setAcc_cur (a : Acc) (v : AccWord) : (s.setAcc a v).cur = s.cur := rfl
@[simp] theorem setAcc_last (a : Acc) (v : AccWord) : (s.setAcc a v).last = s.last := rfl
@[simp] theorem setAcc_held (a : Acc) (v : AccWord) : (s.setAcc a v).held = s.held := rfl

@[simp] theorem store_w (byte : Bool) (a v : Word) : (s.store byte a v).w = s.w := rfl
@[simp] theorem store_wInit (byte : Bool) (a v : Word) : (s.store byte a v).wInit = s.wInit := rfl
@[simp] theorem store_pc (byte : Bool) (a v : Word) : (s.store byte a v).pc = s.pc := rfl
@[simp] theorem store_sr (byte : Bool) (a v : Word) : (s.store byte a v).sr = s.sr := rfl
@[simp] theorem store_corcon (byte : Bool) (a v : Word) : (s.store byte a v).corcon = s.corcon := rfl
@[simp] theorem store_splim (byte : Bool) (a v : Word) : (s.store byte a v).splim = s.splim := rfl
@[simp] theorem store_splimArmed (byte : Bool) (a v : Word) : (s.store byte a v).splimArmed = s.splimArmed := rfl
@[simp] theorem store_tblpag (byte : Bool) (a v : Word) : (s.store byte a v).tblpag = s.tblpag := rfl
@[simp] theorem store_psvpag (byte : Bool) (a v : Word) : (s.store byte a v).psvpag = s.psvpag := rfl
@[simp] theorem store_rcount (byte : Bool) (a v : Word) : (s.store byte a v).rcount = s.rcount := rfl
@[simp] theorem store_dcount (byte : Bool) (a v : Word) : (s.store byte a v).dcount = s.dcount := rfl
@[simp] theorem store_dostart (byte : Bool) (a v : Word) : (s.store byte a v).dostart = s.dostart := rfl
@[simp] theorem store_doend (byte : Bool) (a v : Word) : (s.store byte a v).doend = s.doend := rfl
@[simp] theorem store_dostartShadow (byte : Bool) (a v : Word) : (s.store byte a v).dostartShadow = s.dostartShadow := rfl
@[simp] theorem store_doendShadow (byte : Bool) (a v : Word) : (s.store byte a v).doendShadow = s.doendShadow := rfl
@[simp] theorem store_dcountShadow (byte : Bool) (a v : Word) : (s.store byte a v).dcountShadow = s.dcountShadow := rfl
@[simp] theorem store_modcon (byte : Bool) (a v : Word) : (s.store byte a v).modcon = s.modcon := rfl
@[simp] theorem store_xmodsrt (byte : Bool) (a v : Word) : (s.store byte a v).xmodsrt = s.xmodsrt := rfl
@[simp] theorem store_xmodend (byte : Bool) (a v : Word) : (s.store byte a v).xmodend = s.xmodend := rfl
@[simp] theorem store_ymodsrt (byte : Bool) (a v : Word) : (s.store byte a v).ymodsrt = s.ymodsrt := rfl
@[simp] theorem store_ymodend (byte : Bool) (a v : Word) : (s.store byte a v).ymodend = s.ymodend := rfl
@[simp] theorem store_xbrev (byte : Bool) (a v : Word) : (s.store byte a v).xbrev = s.xbrev := rfl
@[simp] theorem store_disicnt (byte : Bool) (a v : Word) : (s.store byte a v).disicnt = s.disicnt := rfl
@[simp] theorem store_acca (byte : Bool) (a v : Word) : (s.store byte a v).acca = s.acca := rfl
@[simp] theorem store_accb (byte : Bool) (a v : Word) : (s.store byte a v).accb = s.accb := rfl
@[simp] theorem store_wShadow (byte : Bool) (a v : Word) : (s.store byte a v).wShadow = s.wShadow := rfl
@[simp] theorem store_srShadow (byte : Bool) (a v : Word) : (s.store byte a v).srShadow = s.srShadow := rfl
@[simp] theorem store_edtPending (byte : Bool) (a v : Word) : (s.store byte a v).edtPending = s.edtPending := rfl
@[simp] theorem store_div (byte : Bool) (a v : Word) : (s.store byte a v).div = s.div := rfl
@[simp] theorem store_pendingTraps (byte : Bool) (a v : Word) : (s.store byte a v).pendingTraps = s.pendingTraps := rfl
@[simp] theorem store_intcon1 (byte : Bool) (a v : Word) : (s.store byte a v).intcon1 = s.intcon1 := rfl
@[simp] theorem store_prog (byte : Bool) (a v : Word) : (s.store byte a v).prog = s.prog := rfl
@[simp] theorem store_irq (byte : Bool) (a v : Word) : (s.store byte a v).irq = s.irq := rfl
@[simp] theorem store_resetReq (byte : Bool) (a v : Word) : (s.store byte a v).resetReq = s.resetReq := rfl
@[simp] theorem store_dev (byte : Bool) (a v : Word) : (s.store byte a v).dev = s.dev := rfl
@[simp] theorem store_free (byte : Bool) (a v : Word) : (s.store byte a v).free = s.free := rfl
@[simp] theorem store_cur (byte : Bool) (a v : Word) : (s.store byte a v).cur = s.cur := rfl
@[simp] theorem store_last (byte : Bool) (a v : Word) : (s.store byte a v).last = s.last := rfl
@[simp] theorem store_held (byte : Bool) (a v : Word) : (s.store byte a v).held = s.held := rfl

@[simp] theorem withSr_w (r : StatusReg) : (s.withSr r).w = s.w := rfl
@[simp] theorem withSr_wInit (r : StatusReg) : (s.withSr r).wInit = s.wInit := rfl
@[simp] theorem withSr_pc (r : StatusReg) : (s.withSr r).pc = s.pc := rfl
@[simp] theorem withSr_corcon (r : StatusReg) : (s.withSr r).corcon = s.corcon := rfl
@[simp] theorem withSr_splim (r : StatusReg) : (s.withSr r).splim = s.splim := rfl
@[simp] theorem withSr_splimArmed (r : StatusReg) : (s.withSr r).splimArmed = s.splimArmed := rfl
@[simp] theorem withSr_tblpag (r : StatusReg) : (s.withSr r).tblpag = s.tblpag := rfl
@[simp] theorem withSr_psvpag (r : StatusReg) : (s.withSr r).psvpag = s.psvpag := rfl
@[simp] theorem withSr_rcount (r : StatusReg) : (s.withSr r).rcount = s.rcount := rfl
@[simp] theorem withSr_dcount (r : StatusReg) : (s.withSr r).dcount = s.dcount := rfl
@[simp] theorem withSr_dostart (r : StatusReg) : (s.withSr r).dostart = s.dostart := rfl
@[simp] theorem withSr_doend (r : StatusReg) : (s.withSr r).doend = s.doend := rfl
@[simp] theorem withSr_dostartShadow (r : StatusReg) : (s.withSr r).dostartShadow = s.dostartShadow := rfl
@[simp] theorem withSr_doendShadow (r : StatusReg) : (s.withSr r).doendShadow = s.doendShadow := rfl
@[simp] theorem withSr_dcountShadow (r : StatusReg) : (s.withSr r).dcountShadow = s.dcountShadow := rfl
@[simp] theorem withSr_modcon (r : StatusReg) : (s.withSr r).modcon = s.modcon := rfl
@[simp] theorem withSr_xmodsrt (r : StatusReg) : (s.withSr r).xmodsrt = s.xmodsrt := rfl
@[simp] theorem withSr_xmodend (r : StatusReg) : (s.withSr r).xmodend = s.xmodend := rfl
@[simp] theorem withSr_ymodsrt (r : StatusReg) : (s.withSr r).ymodsrt = s.ymodsrt := rfl
@[simp] theorem withSr_ymodend (r : StatusReg) : (s.withSr r).ymodend = s.ymodend := rfl
@[simp] theorem withSr_xbrev (r : StatusReg) : (s.withSr r).xbrev = s.xbrev := rfl
@[simp] theorem withSr_disicnt (r : StatusReg) : (s.withSr r).disicnt = s.disicnt := rfl
@[simp] theorem withSr_acca (r : StatusReg) : (s.withSr r).acca = s.acca := rfl
@[simp] theorem withSr_accb (r : StatusReg) : (s.withSr r).accb = s.accb := rfl
@[simp] theorem withSr_wShadow (r : StatusReg) : (s.withSr r).wShadow = s.wShadow := rfl
@[simp] theorem withSr_srShadow (r : StatusReg) : (s.withSr r).srShadow = s.srShadow := rfl
@[simp] theorem withSr_edtPending (r : StatusReg) : (s.withSr r).edtPending = s.edtPending := rfl
@[simp] theorem withSr_div (r : StatusReg) : (s.withSr r).div = s.div := rfl
@[simp] theorem withSr_pendingTraps (r : StatusReg) : (s.withSr r).pendingTraps = s.pendingTraps := rfl
@[simp] theorem withSr_intcon1 (r : StatusReg) : (s.withSr r).intcon1 = s.intcon1 := rfl
@[simp] theorem withSr_data (r : StatusReg) : (s.withSr r).data = s.data := rfl
@[simp] theorem withSr_prog (r : StatusReg) : (s.withSr r).prog = s.prog := rfl
@[simp] theorem withSr_irq (r : StatusReg) : (s.withSr r).irq = s.irq := rfl
@[simp] theorem withSr_resetReq (r : StatusReg) : (s.withSr r).resetReq = s.resetReq := rfl
@[simp] theorem withSr_dev (r : StatusReg) : (s.withSr r).dev = s.dev := rfl
@[simp] theorem withSr_free (r : StatusReg) : (s.withSr r).free = s.free := rfl
@[simp] theorem withSr_cur (r : StatusReg) : (s.withSr r).cur = s.cur := rfl
@[simp] theorem withSr_last (r : StatusReg) : (s.withSr r).last = s.last := rfl
@[simp] theorem withSr_held (r : StatusReg) : (s.withSr r).held = s.held := rfl

@[simp] theorem restoreStatus_w (hi : Word) : (s.restoreStatus hi).w = s.w := rfl
@[simp] theorem restoreStatus_wInit (hi : Word) : (s.restoreStatus hi).wInit = s.wInit := rfl
@[simp] theorem restoreStatus_pc (hi : Word) : (s.restoreStatus hi).pc = s.pc := rfl
@[simp] theorem restoreStatus_splim (hi : Word) : (s.restoreStatus hi).splim = s.splim := rfl
@[simp] theorem restoreStatus_splimArmed (hi : Word) : (s.restoreStatus hi).splimArmed = s.splimArmed := rfl
@[simp] theorem restoreStatus_tblpag (hi : Word) : (s.restoreStatus hi).tblpag = s.tblpag := rfl
@[simp] theorem restoreStatus_psvpag (hi : Word) : (s.restoreStatus hi).psvpag = s.psvpag := rfl
@[simp] theorem restoreStatus_rcount (hi : Word) : (s.restoreStatus hi).rcount = s.rcount := rfl
@[simp] theorem restoreStatus_dcount (hi : Word) : (s.restoreStatus hi).dcount = s.dcount := rfl
@[simp] theorem restoreStatus_dostart (hi : Word) : (s.restoreStatus hi).dostart = s.dostart := rfl
@[simp] theorem restoreStatus_doend (hi : Word) : (s.restoreStatus hi).doend = s.doend := rfl
@[simp] theorem restoreStatus_dostartShadow (hi : Word) : (s.restoreStatus hi).dostartShadow = s.dostartShadow := rfl
@[simp] theorem restoreStatus_doendShadow (hi : Word) : (s.restoreStatus hi).doendShadow = s.doendShadow := rfl
@[simp] theorem restoreStatus_dcountShadow (hi : Word) : (s.restoreStatus hi).dcountShadow = s.dcountShadow := rfl
@[simp] theorem restoreStatus_modcon (hi : Word) : (s.restoreStatus hi).modcon = s.modcon := rfl
@[simp] theorem restoreStatus_xmodsrt (hi : Word) : (s.restoreStatus hi).xmodsrt = s.xmodsrt := rfl
@[simp] theorem restoreStatus_xmodend (hi : Word) : (s.restoreStatus hi).xmodend = s.xmodend := rfl
@[simp] theorem restoreStatus_ymodsrt (hi : Word) : (s.restoreStatus hi).ymodsrt = s.ymodsrt := rfl
@[simp] theorem restoreStatus_ymodend (hi : Word) : (s.restoreStatus hi).ymodend = s.ymodend := rfl
@[simp] theorem restoreStatus_xbrev (hi : Word) : (s.restoreStatus hi).xbrev = s.xbrev := rfl
@[simp] theorem restoreStatus_disicnt (hi : Word) : (s.restoreStatus hi).disicnt = s.disicnt := rfl
@[simp] theorem restoreStatus_acca (hi : Word) : (s.restoreStatus hi).acca = s.acca := rfl
@[simp] theorem restoreStatus_accb (hi : Word) : (s.restoreStatus hi).accb = s.accb := rfl
@[simp] theorem restoreStatus_wShadow (hi : Word) : (s.restoreStatus hi).wShadow = s.wShadow := rfl
@[simp] theorem restoreStatus_srShadow (hi : Word) : (s.restoreStatus hi).srShadow = s.srShadow := rfl
@[simp] theorem restoreStatus_edtPending (hi : Word) : (s.restoreStatus hi).edtPending = s.edtPending := rfl
@[simp] theorem restoreStatus_div (hi : Word) : (s.restoreStatus hi).div = s.div := rfl
@[simp] theorem restoreStatus_pendingTraps (hi : Word) : (s.restoreStatus hi).pendingTraps = s.pendingTraps := rfl
@[simp] theorem restoreStatus_intcon1 (hi : Word) : (s.restoreStatus hi).intcon1 = s.intcon1 := rfl
@[simp] theorem restoreStatus_data (hi : Word) : (s.restoreStatus hi).data = s.data := rfl
@[simp] theorem restoreStatus_prog (hi : Word) : (s.restoreStatus hi).prog = s.prog := rfl
@[simp] theorem restoreStatus_irq (hi : Word) : (s.restoreStatus hi).irq = s.irq := rfl
@[simp] theorem restoreStatus_resetReq (hi : Word) : (s.restoreStatus hi).resetReq = s.resetReq := rfl
@[simp] theorem restoreStatus_dev (hi : Word) : (s.restoreStatus hi).dev = s.dev := rfl
@[simp] theorem restoreStatus_free (hi : Word) : (s.restoreStatus hi).free = s.free := rfl
@[simp] theorem restoreStatus_cur (hi : Word) :
    (s.restoreStatus hi).cur = { s.cur with ipl := s.cur.ipl || hi.extractLsb' 13 3 != s.sr.ipl } := rfl
@[simp] theorem restoreStatus_last (hi : Word) : (s.restoreStatus hi).last = s.last := rfl
@[simp] theorem restoreStatus_held (hi : Word) : (s.restoreStatus hi).held = s.held := rfl

@[simp] theorem withSr_sr (r : StatusReg) : (s.withSr r).sr = r := rfl

@[simp] theorem pend_pendingTraps (t : Trap) : (s.pend t).pendingTraps = s.pendingTraps.put t true := rfl

@[simp] theorem movePointer_pc (r : RegNum) (p : Option Word) : (s.movePointer r p).pc = s.pc := by
  cases p <;> rfl
@[simp] theorem movePointer_sr (r : RegNum) (p : Option Word) : (s.movePointer r p).sr = s.sr := by
  cases p <;> rfl
@[simp] theorem movePointer_corcon (r : RegNum) (p : Option Word) : (s.movePointer r p).corcon = s.corcon := by
  cases p <;> rfl
@[simp] theorem movePointer_splim (r : RegNum) (p : Option Word) : (s.movePointer r p).splim = s.splim := by
  cases p <;> rfl
@[simp] theorem movePointer_splimArmed (r : RegNum) (p : Option Word) : (s.movePointer r p).splimArmed = s.splimArmed := by
  cases p <;> rfl
@[simp] theorem movePointer_tblpag (r : RegNum) (p : Option Word) : (s.movePointer r p).tblpag = s.tblpag := by
  cases p <;> rfl
@[simp] theorem movePointer_psvpag (r : RegNum) (p : Option Word) : (s.movePointer r p).psvpag = s.psvpag := by
  cases p <;> rfl
@[simp] theorem movePointer_rcount (r : RegNum) (p : Option Word) : (s.movePointer r p).rcount = s.rcount := by
  cases p <;> rfl
@[simp] theorem movePointer_dcount (r : RegNum) (p : Option Word) : (s.movePointer r p).dcount = s.dcount := by
  cases p <;> rfl
@[simp] theorem movePointer_dostart (r : RegNum) (p : Option Word) : (s.movePointer r p).dostart = s.dostart := by
  cases p <;> rfl
@[simp] theorem movePointer_doend (r : RegNum) (p : Option Word) : (s.movePointer r p).doend = s.doend := by
  cases p <;> rfl
@[simp] theorem movePointer_dostartShadow (r : RegNum) (p : Option Word) : (s.movePointer r p).dostartShadow = s.dostartShadow := by
  cases p <;> rfl
@[simp] theorem movePointer_doendShadow (r : RegNum) (p : Option Word) : (s.movePointer r p).doendShadow = s.doendShadow := by
  cases p <;> rfl
@[simp] theorem movePointer_dcountShadow (r : RegNum) (p : Option Word) : (s.movePointer r p).dcountShadow = s.dcountShadow := by
  cases p <;> rfl
@[simp] theorem movePointer_modcon (r : RegNum) (p : Option Word) : (s.movePointer r p).modcon = s.modcon := by
  cases p <;> rfl
@[simp] theorem movePointer_xmodsrt (r : RegNum) (p : Option Word) : (s.movePointer r p).xmodsrt = s.xmodsrt := by
  cases p <;> rfl
@[simp] theorem movePointer_xmodend (r : RegNum) (p : Option Word) : (s.movePointer r p).xmodend = s.xmodend := by
  cases p <;> rfl
@[simp] theorem movePointer_ymodsrt (r : RegNum) (p : Option Word) : (s.movePointer r p).ymodsrt = s.ymodsrt := by
  cases p <;> rfl
@[simp] theorem movePointer_ymodend (r : RegNum) (p : Option Word) : (s.movePointer r p).ymodend = s.ymodend := by
  cases p <;> rfl
@[simp] theorem movePointer_xbrev (r : RegNum) (p : Option Word) : (s.movePointer r p).xbrev = s.xbrev := by
  cases p <;> rfl
@[simp] theorem movePointer_disicnt (r : RegNum) (p : Option Word) : (s.movePointer r p).disicnt = s.disicnt := by
  cases p <;> rfl
@[simp] theorem movePointer_acca (r : RegNum) (p : Option Word) : (s.movePointer r p).acca = s.acca := by
  cases p <;> rfl
@[simp] theorem movePointer_accb (r : RegNum) (p : Option Word) : (s.movePointer r p).accb = s.accb := by
  cases p <;> rfl
@[simp] theorem movePointer_wShadow (r : RegNum) (p : Option Word) : (s.movePointer r p).wShadow = s.wShadow := by
  cases p <;> rfl
@[simp] theorem movePointer_srShadow (r : RegNum) (p : Option Word) : (s.movePointer r p).srShadow = s.srShadow := by
  cases p <;> rfl
@[simp] theorem movePointer_edtPending (r : RegNum) (p : Option Word) : (s.movePointer r p).edtPending = s.edtPending := by
  cases p <;> rfl
@[simp] theorem movePointer_div (r : RegNum) (p : Option Word) : (s.movePointer r p).div = s.div := by
  cases p <;> rfl
@[simp] theorem movePointer_pendingTraps (r : RegNum) (p : Option Word) : (s.movePointer r p).pendingTraps = s.pendingTraps := by
  cases p <;> rfl
@[simp] theorem movePointer_intcon1 (r : RegNum) (p : Option Word) : (s.movePointer r p).intcon1 = s.intcon1 := by
  cases p <;> rfl
@[simp] theorem movePointer_data (r : RegNum) (p : Option Word) : (s.movePointer r p).data = s.data := by
  cases p <;> rfl
@[simp] theorem movePointer_prog (r : RegNum) (p : Option Word) : (s.movePointer r p).prog = s.prog := by
  cases p <;> rfl
@[simp] theorem movePointer_irq (r : RegNum) (p : Option Word) : (s.movePointer r p).irq = s.irq := by
  cases p <;> rfl
@[simp] theorem movePointer_resetReq (r : RegNum) (p : Option Word) : (s.movePointer r p).resetReq = s.resetReq := by
  cases p <;> rfl
@[simp] theorem movePointer_dev (r : RegNum) (p : Option Word) : (s.movePointer r p).dev = s.dev := by
  cases p <;> rfl
@[simp] theorem movePointer_free (r : RegNum) (p : Option Word) : (s.movePointer r p).free = s.free := by
  cases p <;> rfl
@[simp] theorem movePointer_last (r : RegNum) (p : Option Word) : (s.movePointer r p).last = s.last := by
  cases p <;> rfl
@[simp] theorem movePointer_held (r : RegNum) (p : Option Word) : (s.movePointer r p).held = s.held := by
  cases p <;> rfl

/-- A register after a word or byte is stored in the register file (R20, R24). -/
theorem readW_setW (r q : RegNum) (v : Word) :
    (s.setW r v).readW q = if r = q then (if r = 15 then evenWord v else v) else s.readW q := by
  unfold State.readW State.setW
  simp only [Vector.getElem_set]
  by_cases h : r = q
  · subst h; simp
  · simp [h, show ¬ r.toNat = q.toNat from fun e => h (BitVec.eq_of_toNat_eq e)]

@[simp] theorem readW_setInit (r q : RegNum) : (s.setInit r).readW q = s.readW q := rfl
@[simp] theorem readW_markWrote (r q : RegNum) : (s.markWrote r).readW q = s.readW q := rfl
@[simp] theorem readW_markSrcEa (r q : RegNum) : (s.markSrcEa r).readW q = s.readW q := rfl
@[simp] theorem readW_markLoop (q : RegNum) : s.markLoop.readW q = s.readW q := rfl
@[simp] theorem readW_mark (f : Recent → Recent) (q : RegNum) : (s.mark f).readW q = s.readW q := rfl
@[simp] theorem readW_pend (t : Trap) (q : RegNum) : (s.pend t).readW q = s.readW q := rfl
@[simp] theorem readW_setAcc (a : Acc) (v : AccWord) (q : RegNum) : (s.setAcc a v).readW q = s.readW q := rfl
@[simp] theorem readW_store (byte : Bool) (a v : Word) (q : RegNum) : (s.store byte a v).readW q = s.readW q := rfl
@[simp] theorem readW_withSr (r : StatusReg) (q : RegNum) : (s.withSr r).readW q = s.readW q := rfl
@[simp] theorem readW_restoreStatus (hi : Word) (q : RegNum) : (s.restoreStatus hi).readW q = s.readW q := rfl

/-- A register after a word write (R13, R24). -/
theorem readW_putWord (r q : RegNum) (v : Word) :
    (s.putWord r v).readW q = if r = q then (if r = 15 then evenWord v else v) else s.readW q := readW_setW s r q v

/-- A register after a byte write (R24, R25). -/
theorem readW_putByte (r q : RegNum) (v : Byte) :
    (s.putByte r v).readW q =
      if r = q then (if r = 15 then evenWord (withLowByte (s.readW r) v) else withLowByte (s.readW r) v)
      else s.readW q := readW_setW s r q _

@[simp] theorem initialised_setW (r q : RegNum) (v : Word) : (s.setW r v).initialised q = s.initialised q := rfl
@[simp] theorem initialised_markWrote (r q : RegNum) : (s.markWrote r).initialised q = s.initialised q := rfl
@[simp] theorem initialised_markSrcEa (r q : RegNum) : (s.markSrcEa r).initialised q = s.initialised q := rfl
@[simp] theorem initialised_pend (t : Trap) (q : RegNum) : (s.pend t).initialised q = s.initialised q := rfl
@[simp] theorem initialised_store (byte : Bool) (a v : Word) (q : RegNum) :
    (s.store byte a v).initialised q = s.initialised q := rfl
@[simp] theorem initialised_withSr (r : StatusReg) (q : RegNum) : (s.withSr r).initialised q = s.initialised q := rfl
@[simp] theorem initialised_putByte (r q : RegNum) (v : Byte) : (s.putByte r v).initialised q = s.initialised q := rfl

/-- A word write initialises its register and no other (R26). -/
theorem initialised_putWord (r q : RegNum) (v : Word) :
    (s.putWord r v).initialised q = (s.initialised q || r == q) := by
  by_cases hr : r.toNat < 15
  · by_cases hq : q.toNat < 15
    · by_cases h : r = q
      · subst h; simp [State.putWord, State.initialised, State.setInit, State.setW, State.markWrote, hr]
      · have : ¬ r.toNat = q.toNat := fun e => h (BitVec.eq_of_toNat_eq e)
        simp [State.putWord, State.initialised, State.setInit, State.setW, State.markWrote, hr, hq, h, this]
    · simp [State.initialised, hq]
  · by_cases hq : q.toNat < 15
    · have : ¬ r = q := fun e => hr (e ▸ hq)
      simp [State.putWord, State.initialised, State.setInit, State.setW, State.markWrote, hr, hq, this]
    · simp [State.initialised, hq]

end Sys2Proof.Machine
end

