-- ==== Sys2Proof/Laws/Memory.lean ====
section
/-! SUPPORT. The canonical form of the memories: every operation keeps it, the memories of a reset have it, and a byte
reads as it was last written. -/

namespace Sys2Proof.Machine

theorem Memory.wfFrom_mono {a b : Nat} {m : Memory} (h : m.wfFrom a = true) (hb : b ≤ a) : m.wfFrom b = true := by
  cases m with
  | nil => rfl
  | cons c rest =>
    simp only [Memory.wfFrom, Bool.and_eq_true, decide_eq_true_eq] at h ⊢
    exact ⟨⟨by omega, h.1.2⟩, h.2⟩

theorem Memory.read_of_lt {a k : Nat} {m : Memory} (h : m.wfFrom a = true) (hk : k < a) :
    m.read k = Config.unwritten := by
  induction m generalizing a with
  | nil => rfl
  | cons c rest ih =>
    simp only [Memory.wfFrom, Bool.and_eq_true, decide_eq_true_eq] at h
    simp only [Memory.read, show ¬ c.1 = k by omega, if_false]
    exact ih h.2 (by omega)

theorem Memory.wfFrom_cons {a b : Nat} {v : Byte} {m : Memory} (h : m.wfFrom (a + 1) = true) (hb : b ≤ a) :
    (Memory.cons a v m).wfFrom b = true := by
  unfold Memory.cons
  split
  · exact Memory.wfFrom_mono h (by omega)
  · simp_all [Memory.wfFrom]

theorem Memory.wfFrom_write {b a : Nat} {v : Byte} {m : Memory} (h : m.wfFrom b = true) (hb : b ≤ a) :
    (m.write a v).wfFrom b = true := by
  induction m generalizing b with
  | nil => exact Memory.wfFrom_cons rfl hb
  | cons c rest ih =>
    have h' := h
    simp only [Memory.wfFrom, Bool.and_eq_true, decide_eq_true_eq] at h
    unfold Memory.write
    split
    · refine Memory.wfFrom_cons ?_ hb
      simp only [Memory.wfFrom, Bool.and_eq_true, decide_eq_true_eq]
      exact ⟨⟨by omega, h.1.2⟩, h.2⟩
    · split
      · rename_i e
        exact Memory.wfFrom_cons (e ▸ h.2) hb
      · simp only [Memory.wfFrom, Bool.and_eq_true, decide_eq_true_eq]
        exact ⟨⟨h.1.1, h.1.2⟩, ih h.2 (by omega)⟩

/-- A write keeps the canonical form. -/
theorem Memory.wf_write {m : Memory} (h : m.wf = true) (a : Nat) (v : Byte) : (m.write a v).wf = true :=
  Memory.wfFrom_write h (Nat.zero_le a)

/-- A byte reads as written. -/
theorem Memory.read_write_same {b a : Nat} {v : Byte} {m : Memory} (h : m.wfFrom b = true) :
    (m.write a v).read a = v := by
  induction m generalizing b with
  | nil => unfold Memory.write Memory.cons; split <;> simp_all [Memory.read]
  | cons c rest ih =>
    simp only [Memory.wfFrom, Bool.and_eq_true, decide_eq_true_eq] at h
    unfold Memory.write
    split
    · unfold Memory.cons
      split
      · rename_i hlt e
        rw [e]
        exact Memory.read_of_lt (a := c.1) (by simp [Memory.wfFrom, h]) hlt
      · simp [Memory.read]
    · split
      · unfold Memory.cons
        split
        · rename_i e e'
          rw [e']
          exact Memory.read_of_lt h.2 (by omega)
        · simp [Memory.read]
      · simp only [Memory.read, show ¬ c.1 = a by omega, if_false]
        exact ih h.2

/-- A write leaves every other byte as it reads. -/
theorem Memory.read_write_other {a k : Nat} {v : Byte} (m : Memory) (h : k ≠ a) : (m.write a v).read k = m.read k := by
  induction m with
  | nil => unfold Memory.write Memory.cons; split <;> simp [Memory.read, Ne.symm h]
  | cons c rest ih =>
    unfold Memory.write
    split
    · unfold Memory.cons; split <;> simp [Memory.read, Ne.symm h]
    · split
      · rename_i e
        unfold Memory.cons
        split <;> simp [Memory.read, Ne.symm h, ← e]
      · simp only [Memory.read, ih]

/-- A write inside a range keeps the memory inside it. -/
theorem Memory.within_write {lo hi a : Nat} {v : Byte} {m : Memory} (h : m.within lo hi = true) (h1 : lo ≤ a)
    (h2 : a ≤ hi) : (m.write a v).within lo hi = true := by
  induction m with
  | nil => unfold Memory.write Memory.cons; split <;> simp [Memory.within, h1, h2]
  | cons c rest ih =>
    have hc : (lo ≤ c.1 ∧ c.1 ≤ hi) ∧ Memory.within lo hi rest = true := by
      simpa [Memory.within] using h
    unfold Memory.write
    split
    · unfold Memory.cons
      split
      · exact h
      · simpa [Memory.within, h1, h2] using h
    · split
      · unfold Memory.cons
        split
        · exact hc.2
        · simpa [Memory.within, h1, h2] using hc.2
      · have hw := ih hc.2
        simp only [Memory.within, List.all_cons, Bool.and_eq_true, decide_eq_true_eq] at hw ⊢
        exact ⟨hc.1, hw⟩

/-- The memories of `State.reset` have the canonical form. -/
theorem reset_memory_wf : State.reset.data.wf = true ∧ State.reset.prog.wf = true := by decide

theorem ramRange_wfFrom (k n : Nat) : ∀ a,
    Memory.wfFrom a ((List.range' a n).filterMap fun a =>
      if Config.ramAfterReset k a = Config.unwritten then none else some (a, Config.ramAfterReset k a)) = true := by
  induction n with
  | zero => intro a; rfl
  | succ n ih =>
    intro a
    rw [List.range'_succ, List.filterMap_cons]
    split
    · exact Memory.wfFrom_mono (ih (a + 1)) (by omega)
    · rename_i b hb
      split at hb
      · cases hb
      · cases hb
        simp_all [Memory.wfFrom]

/-- The RAM after a device Reset has the canonical form. -/
theorem ramAfterReset_wf (d : Device) (k : Nat) : (ramAfterReset d k).wf = true :=
  Memory.wfFrom_mono (ramRange_wfFrom k _ ramStart) (Nat.zero_le _)

/-- The RAM after a device Reset lies in its range. -/
theorem ramAfterReset_within (d : Device) (k : Nat) :
    (ramAfterReset d k).within ramStart d.ramTop.toNat = true := by
  simp only [Memory.within, List.all_eq_true, ramAfterReset, List.mem_filterMap, Bool.and_eq_true, decide_eq_true_eq]
  rintro ⟨a, v⟩ ⟨b, hb, e⟩
  rw [List.mem_range'_1] at hb
  split at e
  · cases e
  · cases e; omega

/-- A store keeps the canonical form. -/
theorem store_wf {s : State} (h : s.data.wf = true) (byte : Bool) (a v : Word) : (s.store byte a v).data.wf = true := by
  cases byte
  · exact Memory.wf_write (Memory.wf_write h _ _) _ _
  · exact Memory.wf_write h _ _

/-- Storing a program word keeps the canonical form. -/
theorem setProgWord_wf {s : State} (h : s.prog.wf = true) (a : PcAddr) (w : ProgWord) :
    (s.setProgWord a w).prog.wf = true :=
  Memory.wf_write (Memory.wf_write (Memory.wf_write h _ _) _ _) _ _

end Sys2Proof.Machine
end

