-- ==== Sys2Proof/Laws/Ops.lean ====
section
/-! SUPPORT. How operations run, and one lemma for each shared operation that says what it gives where its operand is
ready: memory reads and writes, operands, the stack, the ALU. -/

namespace Sys2Proof.Machine

/-! ### Running an operation -/

theorem run_bind {α β : Type} (x : M α) (f : α → M β) (s : State) :
    (x >>= f).run s = match x.run s with
      | .ok a t => (f a).run t
      | .error e t => .error e t := by
  unfold EStateM.run
  show EStateM.bind x f s = _
  unfold EStateM.bind
  cases x s <;> rfl

@[simp] theorem run_bind_ok {α β : Type} {x : M α} {f : α → M β} {s t : State} {a : α} (h : x.run s = .ok a t) :
    (x >>= f).run s = (f a).run t := by rw [run_bind, h]

@[simp] theorem run_pure {α : Type} (a : α) (s : State) : (pure a : M α).run s = .ok a s := rfl
@[simp] theorem run_getS (s : State) : getS.run s = .ok s s := rfl
@[simp] theorem run_modS (f : State → State) (s : State) : (modS f).run s = .ok () (f s) := rfl
@[simp] theorem run_stopWith {α : Type} (e : Stop) (s : State) : (stopWith e : M α).run s = .error e s := rfl
@[simp] theorem run_stopIf_false (e : Stop) (s : State) : (stopIf false e).run s = .ok () s := rfl
@[simp] theorem run_stopIf_true (e : Stop) (s : State) : (stopIf true e).run s = .error e s := rfl
@[simp] theorem run_addressErrorIf_false (s : State) : (addressErrorIf false).run s = .ok () s := rfl
@[simp] theorem run_readW (r : RegNum) (s : State) : (readW r).run s = .ok (s.readW r) s := rfl
@[simp] theorem run_writeWord (r : RegNum) (v : Word) (s : State) : (writeWord r v).run s = .ok () (s.putWord r v) := rfl
@[simp] theorem run_writeByte (r : RegNum) (v : Byte) (s : State) : (writeByte r v).run s = .ok () (s.putByte r v) := rfl
@[simp] theorem run_modSr (f : StatusReg → StatusReg) (s : State) : (modSr f).run s = .ok () (s.withSr (f s.sr)) := rfl
@[simp] theorem run_draw (n : Nat) (s : State) :
    (draw n).run s = .ok (Config.free n s.free) { s with free := s.free + 1 } := rfl
@[simp] theorem run_modifyPointer (r : RegNum) (p : Option Word) (s : State) :
    (modifyPointer r p).run s = .ok () (s.movePointer r p) := rfl
@[simp] theorem run_jumpTo (a : PcAddr) (s : State) :
    (jumpTo a).run s = .ok () { s with cur := { s.cur with jump := some (evenPc a) } } := rfl
@[simp] theorem run_accWrite (a : Acc) (t : Int) (s : State) : (accWrite a t).run s = .ok () (s.accWrite a t) := rfl

/-- A branch of an operation. -/
theorem run_ite {α : Type} (c : Prop) [Decidable c] (x y : M α) (s : State) :
    (if c then x else y).run s = if c then x.run s else y.run s := by split <;> rfl

theorem outcome_ok {m : M Unit} {s t : State} (h : m.run s = .ok () t) : outcome m s = .next t := by simp [outcome, h]

theorem outcome_ended {m : M Unit} {s t : State} (h : m.run s = .error .ended t) : outcome m s = .next t := by
  simp [outcome, h]

/-- What an operation did if its outcome is a next state: it ran through, or the instruction ended where it says. -/
theorem outcome_next {m : M Unit} {s t : State} (h : outcome m s = .next t) :
    m.run s = .ok () t ∨ m.run s = .error .ended t := by
  unfold outcome at h
  split at h
  · rename_i u e; cases h; exact .inl e
  · rename_i e; cases h; exact .inr e
  · cases h
  · cases h

/-! ### Program addresses -/

theorem run_pcPlus (pc : PcAddr) (k : Int) (s : State) :
    (pcPlus pc k).run s =
      if 0 ≤ (pc.toNat : Int) + k ∧ ((pc.toNat : Int) + k).toNat < 2 ^ 23 then
        .ok (BitVec.ofInt 23 ((pc.toNat : Int) + k)) s
      else .error (.fault .pcOverflow) s := rfl

theorem pcPlus_ok {pc : PcAddr} {k : Int} (h0 : 0 ≤ (pc.toNat : Int) + k) (h1 : (pc.toNat : Int) + k < 2 ^ 23)
    (s : State) : (pcPlus pc k).run s = .ok (BitVec.ofInt 23 ((pc.toNat : Int) + k)) s := by
  rw [run_pcPlus, if_pos ⟨h0, by omega⟩]

/-! ### Data space -/

/-- A word access at an odd address, on a device where it ends the run (R109, R504). -/
theorem addressErrorIf_fault {s : State} (h : s.dev.misalignedTraps = false) :
    (addressErrorIf true).run s = .error (.fault .addressError) s := by
  show (if s.dev.misalignedTraps then _ else _) = _
  rw [h]; rfl

/-- A word access at an odd address, on a device where it is a trap (R109, R504). -/
theorem addressErrorIf_raise {s : State} (h : s.dev.misalignedTraps = true) :
    (addressErrorIf true).run s = .error .ended (s.pend .address) := by
  show (if s.dev.misalignedTraps then _ else _) = _
  rw [h]; rfl

/-- No CPU register lies at or above 0x0800 (R62, R105). -/
theorem sfrAt_ram (d : Device) {a : Word} (h : ramStart ≤ a.toNat) : sfrAt d a = none := by
  rw [sfrAt, if_neg (by omega)]

theorem readSfr_ready {r : Sfr} {s : State} (h : (s.sfrView r).isSome = true)
    (hd : ((r == .doendl || r == .doendh) && s.last.doend) = false) :
    (readSfr r).run s = .ok ((s.sfrView r).getD 0) s := by
  obtain ⟨v, e⟩ := Option.isSome_iff_exists.mp h
  show (match s.sfrView r with | some v => _ | none => _) = _
  simp only [e, hd, Bool.false_eq_true, if_false, Option.getD_some]

/-- `MemRead` where the state determines the value (R110, R112, R121). -/
theorem memRead_ready {s : State} {byte : Bool} {a : Word} (h : s.readable byte a = true) :
    (memRead byte a).run s = .ok (s.readValue byte a) (s.afterRead a) := by
  unfold State.readable at h
  rw [Bool.and_eq_true] at h
  obtain ⟨h1, h2⟩ := h
  have ha : (!byte && a.getLsbD 0) = false := by cases byte <;> simp_all
  unfold memRead State.readValue State.afterRead
  simp only [ha, run_bind, run_addressErrorIf_false, run_getS]
  cases e : sfrAt s.dev a with
  | some r =>
    rw [e] at h2
    simp only [Bool.and_eq_true, Bool.not_eq_true'] at h2
    simp [readSfr_ready h2.1 h2.2]
  | none =>
    rw [e] at h2
    simp only at h2
    by_cases hp : (s.corcon.psv && a.getLsbD 15) = true
    · rw [if_pos hp] at h2
      simp only [hp, if_true, run_bind, progData, run_getS, h2, Bool.not_true, run_stopIf_false, run_pure, run_modS,
        Option.isNone_none, Bool.true_and]
    · rw [if_neg hp] at h2
      have hp' : (s.corcon.psv && a.getLsbD 15) = false := by simpa using hp
      simp only [hp', run_bind, h2, Bool.not_true, run_stopIf_false, run_pure, Option.isNone_none, Bool.true_and,
        Bool.false_eq_true, if_false]

/-- `MemWrite` to RAM (R111). -/
theorem memWrite_ready {s : State} {byte : Bool} {a : Word} (h : s.writable byte a = true) (v : Word) :
    (memWrite byte a v).run s = .ok () (s.store byte a v) := by
  unfold State.writable at h
  simp only [Bool.and_eq_true, Bool.not_eq_true'] at h
  obtain ⟨⟨h1, h2⟩, h3⟩ := h
  have ha : (!byte && a.getLsbD 0) = false := by cases byte <;> simp_all
  have hr : ramStart ≤ a.toNat := by
    simp only [State.inRam, Bool.and_eq_true, decide_eq_true_eq] at h2
    exact h2.1
  unfold memWrite
  simp only [ha, run_bind, run_addressErrorIf_false, run_getS, sfrAt_ram s.dev hr, h3, h2, run_stopIf_false, Bool.not_true, run_modS]

/-- A word write to the address of a CPU register applies the register's write rule (R111). -/
theorem memWrite_sfr {s : State} {a v : Word} {r : Sfr} (ha : a.getLsbD 0 = false) (e : sfrAt s.dev a = some r) :
    (memWrite false a v).run s = (writeSfr r v true).run s := by
  unfold memWrite
  simp only [ha, Bool.and_false, run_bind, run_addressErrorIf_false, run_getS, e, Bool.false_eq_true, if_false]

/-- A read of a RAM address that a write can reach too gives what RAM holds. -/
theorem readable_of_writable {s : State} {byte : Bool} {a : Word} (h : s.writable byte a = true) :
    s.readable byte a = true ∧ s.readValue byte a = s.load byte a ∧ s.afterRead a = s := by
  unfold State.writable at h
  simp only [Bool.and_eq_true, Bool.not_eq_true'] at h
  obtain ⟨⟨h1, h2⟩, h3⟩ := h
  have hr : ramStart ≤ a.toNat := by
    simp only [State.inRam, Bool.and_eq_true, decide_eq_true_eq] at h2
    exact h2.1
  simp only [State.readable, State.readValue, State.afterRead, sfrAt_ram s.dev hr, h1, h2, h3, Option.isNone_none,
    Bool.true_and, Bool.false_eq_true, if_false, and_self]

/-! ### Operands -/

theorem checkStack_ok {s : State} {ea : Word} {w : Bool} (h : s.stackBad ea w = false) :
    (checkStack ea w).run s = .ok () s := by
  show (if s.stackBad ea w then _ else _) = _
  rw [h]; rfl

theorem checkEa_ok {s : State} {c : Bool} {ea : Word} {w : Bool} (h : (c && s.stackBad ea w) = false) :
    (checkEa c ea w).run s = .ok () s := by
  cases c
  · rfl
  · exact checkStack_ok (by simpa using h)

theorem sourceThrough_ok {s : State} {r : RegNum} (h : (r == 15 && s.last.splim) = false) :
    (sourceThrough r).run s = .ok () (s.markSrcEa r) := by
  simp only [sourceThrough, run_bind, run_getS, h, run_stopIf_false, run_modS]

theorem stackBad_congr {s t : State} (h1 : t.splim = s.splim) (h2 : t.splimArmed = s.splimArmed) (ea : Word) (w : Bool) :
    t.stackBad ea w = s.stackBad ea w := by simp [State.stackBad, h1, h2]

/-- `[--Wn]` and `[++Wn]` address what the modified pointer holds (R200). -/
theorem readW_modified_pre {s : State} {step : Word} {o : Operand} (b : RegNum) (h : o.mode.isPre = true) :
    (s.modified step o).readW o.reg = s.effective b step o := by
  rcases o with ⟨m, r⟩
  cases m <;> simp only [Mode.isPre, Bool.false_eq_true] at h <;>
    simp [State.modified, State.effective, State.movePointer, Mode.newPointer, Mode.ea, Mode.isPre, readW_putWord]

/-- The effective address of an operand that can be addressed (R200). -/
theorem operandAddress_ready {s : State} {b : RegNum} {step : Word} {o : Operand}
    (h : s.addressable b step o = true) :
    (operandAddress b step o).run s = .ok (s.effective b step o) (s.modified step o) := by
  unfold State.addressable at h
  simp only [Bool.and_eq_true, Bool.not_eq_true'] at h
  obtain ⟨hi, hs⟩ := h
  have hs' : (o.usesStack b &&
      (s.modified step o).stackBad (s.effective b step o) (o.mode.wraps (s.readW o.reg) (s.readW b) step)) = false := by
    rw [stackBad_congr (s := s) (by simp [State.modified]) (by simp [State.modified])]
    exact hs
  have hp : (ptr o.reg).run s = .ok (s.readW o.reg) s := by
    show (if s.initialised o.reg then _ else _) = _
    rw [hi]; rfl
  unfold operandAddress
  rw [run_bind_ok hp, run_bind_ok (run_readW b s)]
  by_cases hpre : o.mode.isPre = true
  · rw [if_pos hpre, run_bind_ok (run_modifyPointer _ _ s), run_bind_ok (run_readW _ _)]
    have e := readW_modified_pre (s := s) (step := step) b hpre
    simp only [State.modified] at e hs' ⊢
    rw [e, run_bind_ok (checkEa_ok hs')]
    rfl
  · have e : s.effective b step o = o.mode.ea (s.readW o.reg) (s.readW b) step := by
      simp [State.effective, hpre]
    rw [if_neg hpre, ← e, run_bind_ok (checkEa_ok hs), run_bind_ok (run_modifyPointer _ _ s)]
    rfl

theorem addressable_sourceMarked {s : State} {b : RegNum} {step : Word} {o : Operand} :
    (s.sourceMarked b o).addressable b step o = s.addressable b step o ∧
      (s.sourceMarked b o).effective b step o = s.effective b step o := by
  unfold State.sourceMarked
  split <;> exact ⟨rfl, rfl⟩

/-- The address of a source operand (R200, R570, R590). -/
theorem sourceAddress_ready {s : State} {b : RegNum} {step : Word} {o : Operand} (h : s.addressable b step o = true)
    (hl : (o.usesStack b && s.last.splim) = false) :
    (sourceAddress b step o).run s = .ok (s.effective b step o) (s.beforeSourceRead b step o) := by
  have h1 : (o.reg == 15 && s.last.splim) = false := by
    unfold Operand.usesStack at hl
    cases hs : s.last.splim <;> simp_all
  have ha := addressable_sourceMarked (s := s) (b := b) (step := step) (o := o)
  unfold sourceAddress
  rw [run_bind_ok (sourceThrough_ok h1)]
  by_cases hm : o.mode = .offset
  · have h2 : (b == 15 && (s.markSrcEa o.reg).last.splim) = false := by
      unfold Operand.usesStack at hl
      simp only [markSrcEa_last]
      cases hs : s.last.splim <;> simp_all
    rw [if_pos hm, run_bind_ok (sourceThrough_ok h2)]
    have e : s.sourceMarked b o = (s.markSrcEa o.reg).markSrcEa b := by simp [State.sourceMarked, hm]
    rw [← e, operandAddress_ready (ha.1.trans h), ha.2]
    rfl
  · rw [if_neg hm]
    show (operandAddress b step o).run (s.markSrcEa o.reg) = _
    have e : s.sourceMarked b o = s.markSrcEa o.reg := by simp [State.sourceMarked, hm]
    rw [← e, operandAddress_ready (ha.1.trans h), ha.2]
    rfl

/-- `ReadOperand` where the operand is ready (R200). -/
theorem readOperand_ready {s : State} {b : RegNum} {byte : Bool} {o : Operand} (h : s.sourceReady b byte o = true) :
    (readOperand b byte o).run s = .ok (s.sourceValue b byte o) (s.afterSource b byte o) := by
  unfold readOperand State.sourceValue State.afterSource
  by_cases hd : o.isDirect = true
  · simp [hd]
  · simp only [State.sourceReady, hd, Bool.false_or, Bool.and_eq_true, Bool.not_eq_true'] at h
    rw [if_neg hd, if_neg hd, if_neg hd, run_bind_ok (sourceAddress_ready h.1.1 h.1.2), memRead_ready h.2]

theorem writeReg_run (s : State) (byte : Bool) (r : RegNum) (v : Word) :
    (writeReg byte r v).run s = .ok () (s.putReg byte r v) := by cases byte <;> rfl

/-- `WriteOperand` where the operand is ready (R200, R112). -/
theorem writeOperand_ready {s : State} {b : RegNum} {byte : Bool} {o : Operand} (h : s.destReady b byte o = true)
    (v : Word) : (writeOperand b byte o v).run s = .ok () (s.afterDest b byte o v) := by
  unfold writeOperand State.afterDest
  by_cases hd : o.isDirect = true
  · rw [if_pos hd, if_pos hd, writeReg_run]
  · simp only [State.destReady, hd, Bool.false_or, Bool.and_eq_true] at h
    rw [if_neg hd, if_neg hd, run_bind_ok (operandAddress_ready h.1)]
    refine memWrite_ready ?_ v
    have h2 := h.2
    simp only [State.writable, State.inRam, State.modified, movePointer_dev, movePointer_corcon] at h2 ⊢
    exact h2

/-- The destination of a file register instruction (R256). -/
theorem writeFileOrWreg_ready {s : State} {byte toFile : Bool} {f : BitVec 13}
    (h : s.fileWritable byte toFile f = true) (v : Word) :
    (writeFileOrWreg byte toFile f v).run s = .ok () (s.afterFile byte toFile f v) := by
  unfold writeFileOrWreg State.afterFile
  cases toFile
  · exact writeReg_run s byte 0 v
  · exact memWrite_ready (by simpa [State.fileWritable] using h) v

/-! ### The ALU -/

/-- An addition of the operand size (R250, R251). -/
theorem aluAdd_run (s : State) (byte : Bool) (a b : Word) :
    (aluAdd byte a b).run s = .ok (addResult byte a b) (s.withSr (addSr s.sr byte a b)) := by cases byte <;> rfl

/-- A one-bit shift of the operand size (R265 to R267). -/
theorem aluShiftOne_run (s : State) (k : ShiftKind) (byte : Bool) (a : Word) :
    (aluShiftOne k byte a).run s = .ok (shiftResult k byte a) (s.withSr (shiftSr s.sr k byte a)) := by cases byte <;> rfl

/-- A multi-bit shift (R265 to R267). -/
theorem aluShiftMany_run (s : State) (k : ShiftKind) (a : Word) (n : Nat) :
    (aluShiftMany k a n).run s =
      .ok (shiftMany k a n) (s.withSr (s.sr.withNZ (shiftMany k a n).msb (shiftMany k a n == 0))) := rfl

/-! ### The stack -/

/-- `Push(v)` where it is ready (R130). -/
theorem push_ready {s : State} (h : s.pushReady = true) (v : Word) : (push v).run s = .ok () (s.pushed v) := by
  unfold State.pushReady at h
  simp only [Bool.and_eq_true, Bool.not_eq_true'] at h
  unfold push
  rw [run_bind_ok (run_readW 15 s), run_bind_ok (checkStack_ok h.1), run_bind_ok (memWrite_ready h.2 v),
    run_bind_ok (run_readW 15 _)]
  rfl

/-- `Pop()` where it is ready (R131). -/
theorem pop_ready {s : State} (h : s.popReady = true) : pop.run s = .ok s.popValue s.popped := by
  unfold State.popReady at h
  simp only [Bool.and_eq_true, Bool.not_eq_true'] at h
  have h1 : ((15 : RegNum) == 15 && s.last.splim) = false := by simp [h.1.1]
  unfold pop
  rw [run_bind_ok (run_readW 15 s), run_bind_ok (sourceThrough_ok h1), run_bind_ok (run_writeWord _ _ _),
    run_bind_ok (run_readW 15 _)]
  have e : (s.markSrcEa 15).putWord 15 (s.readW 15 - 2) = s.beforePopRead := rfl
  rw [e, run_bind_ok (checkStack_ok (by
    rw [stackBad_congr (s := s) (by simp [State.beforePopRead]) (by simp [State.beforePopRead])]; exact h.1.2)),
    memRead_ready h.2]
  rfl

/-- A stack check that fails ends the instruction with StackError pending (R503, R511), where the device does not
perform the faulting access. -/
theorem checkStack_fails {s : State} {ea : Word} {w : Bool} (h : s.stackBad ea w = true)
    (hd : s.dev.faultingAccessPerformed = false) : (checkStack ea w).run s = .error .ended (s.pend .stack) := by
  show (if s.stackBad ea w then (if s.dev.faultingAccessPerformed then _ else _) else _) = _
  rw [h, hd]; rfl

end Sys2Proof.Machine
end

