-- ==== Sys2Proof/Laws/Keeps.lean ====
section
/-! SUPPORT. The operations keep the invariant: what holds of a state while an instruction is under way, and one lemma
for each shared operation that says that it keeps it. -/

namespace Sys2Proof.Machine

/-- What holds of a state while an instruction is under way: the invariant without its last clause, and an own target
of the instruction that is even. -/
structure State.Held (s : State) : Prop where
  w15 : evenBits (s.readW 15) = true
  splim : evenBits s.splim = true
  pc : evenBits s.pc = true
  loopRegs : (evenBits s.dostart && evenBits s.doend && evenBits s.dostartShadow && evenBits s.doendShadow) = true
  modcon : s.modcon.extractLsb' 12 4 = 0
  xbrev : s.xbrev.getLsbD 15 = false
  modulo : (evenBits s.xmodsrt && evenBits s.ymodsrt && s.xmodend.getLsbD 0 && s.ymodend.getLsbD 0) = true
  dataForm : s.data.wf = true
  dataRange : s.data.within ramStart s.dev.ramTop.toNat = true
  progForm : s.prog.wf = true
  div : ∀ p, s.div = some p → 1 ≤ p.k ∧ p.k ≤ 17
  edt : s.edtPending ≠ none → s.corcon.dl ≠ 0
  jump : ∀ a, s.cur.jump = some a → evenBits a = true

theorem State.Inv.held {s : State} (h : s.Inv) : s.Held :=
  ⟨h.w15, h.splim, h.pc, h.loopRegs, h.modcon, h.xbrev, h.modulo, h.dataForm, h.dataRange, h.progForm, h.div, h.edt,
    by rw [h.idle]; simp [Scratch.empty]⟩

theorem State.Held.inv {s : State} (h : s.Held) (hi : s.cur = Scratch.empty) : s.Inv :=
  ⟨h.w15, h.splim, h.pc, h.loopRegs, h.modcon, h.xbrev, h.modulo, h.dataForm, h.dataRange, h.progForm, h.div, h.edt, hi⟩

/-! ### Even numbers -/

theorem evenBits_evenPc (a : PcAddr) : evenBits (evenPc a) = true := by simp [evenBits, evenPc]

theorem evenBits_evenWord (v : Word) : evenBits (evenWord v) = true := by simp [evenBits, evenWord]

theorem evenBits_toNat {n : Nat} {a : BitVec n} : evenBits a = true ↔ a.toNat % 2 = 0 := by
  simp only [evenBits, BitVec.getLsbD, Nat.testBit_zero]
  rcases Nat.mod_two_eq_zero_or_one a.toNat with h | h <;> simp [h]

theorem evenBits_ofNat {k : Nat} (h : k % 2 = 0) : evenBits (BitVec.ofNat 23 k) = true := by
  rw [evenBits_toNat, BitVec.toNat_ofNat]; omega

theorem evenBits_withPcLow (a : PcAddr) (v : Word) : evenBits (withPcLow a v) = true := by
  unfold evenBits withPcLow
  rw [BitVec.getLsbD_append]
  simp [evenWord]

theorem evenBits_withPcHigh {a : PcAddr} (h : evenBits a = true) (v : Word) : evenBits (withPcHigh a v) = true := by
  unfold evenBits withPcHigh at *
  rw [BitVec.getLsbD_append]
  simpa using h

/-- A program address moved by an even number of units stays even. -/
theorem pcPlus_even {pc : PcAddr} {k : Int} (h : evenBits pc = true) (hk : k % 2 = 0) :
    evenBits (BitVec.ofInt 23 ((pc.toNat : Int) + k)) = true := by
  rw [evenBits_toNat] at *
  rw [BitVec.toNat_ofInt]
  omega

/-! ### Operations -/

/-- What an operation gives holds the invariant, unless it is a fault or a refusal. -/
def Stays {α : Type} (r : EStateM.Result Stop State α) : Prop :=
  match r with
  | .ok _ t => t.Held
  | .error .ended t => t.Held
  | .error (.fault _) _ => True
  | .error (.refused _) _ => True

/-- The operation, begun in this state, keeps what holds during an instruction, unless it faults or refuses. -/
def KeepsAt {α : Type} (m : M α) (s : State) : Prop := Stays (m.run s)

/-- The operation keeps what holds during an instruction. -/
def Keeps {α : Type} (m : M α) : Prop := ∀ s, s.Held → KeepsAt m s

theorem keepsAt_bind {α β : Type} {x : M α} {f : α → M β} {s : State} (hx : KeepsAt x s)
    (hf : ∀ a t, x.run s = .ok a t → t.Held → KeepsAt (f a) t) : KeepsAt (x >>= f) s := by
  unfold KeepsAt Stays at *
  rw [run_bind]
  cases h : x.run s with
  | ok a t => rw [h] at hx; exact hf a t h hx
  | error e t => rw [h] at hx; cases e <;> exact hx

theorem keeps_bind {α β : Type} {x : M α} {f : α → M β} (hx : Keeps x) (hf : ∀ a, Keeps (f a)) : Keeps (x >>= f) :=
  fun s h => keepsAt_bind (hx s h) fun a t _ ht => hf a t ht

theorem keeps_getS {β : Type} {f : State → M β} (h : ∀ s, s.Held → KeepsAt (f s) s) : Keeps (getS >>= f) := h

theorem keeps_pure {α : Type} (a : α) : Keeps (pure a : M α) := fun _ h => h

theorem keeps_ite {α : Type} {c : Prop} [Decidable c] {x y : M α} (hx : Keeps x) (hy : Keeps y) :
    Keeps (if c then x else y) := by split <;> assumption

theorem keeps_modS {f : State → State} (h : ∀ s, s.Held → (f s).Held) : Keeps (modS f) := h

theorem keeps_fault {α : Type} (f : Fault) : Keeps (stopWith (.fault f) : M α) := fun _ _ => trivial

theorem keeps_refused {α : Type} (r : Refusal) : Keeps (stopWith (.refused r) : M α) := fun _ _ => trivial

theorem keeps_stopFault (c : Bool) (f : Fault) : Keeps (stopIf c (.fault f)) := by
  intro s h; cases c
  · exact h
  · trivial

theorem keeps_stopRefused (c : Bool) (r : Refusal) : Keeps (stopIf c (.refused r)) := by
  intro s h; cases c
  · exact h
  · trivial

theorem keeps_noMemory (c : Bool) (d : Device) (a : Word) : Keeps (stopIf c (noMemory d a)) := by
  unfold noMemory
  split
  · exact keeps_stopRefused _ _
  · exact keeps_stopFault _ _

theorem held_pend {s : State} (h : s.Held) (t : Trap) : (s.pend t).Held :=
  ⟨h.w15, h.splim, h.pc, h.loopRegs, h.modcon, h.xbrev, h.modulo, h.dataForm, h.dataRange, h.progForm, h.div, h.edt,
    h.jump⟩

theorem keeps_raise {α : Type} (t : Trap) : Keeps (raise t : M α) := fun _ h => held_pend h t

theorem keeps_addressErrorIf (c : Bool) : Keeps (addressErrorIf c) := by
  intro s h
  cases c
  · exact h
  · show Stays (if s.dev.misalignedTraps then _ else _)
    split
    · exact held_pend h _
    · trivial

theorem keeps_readW (r : RegNum) : Keeps (readW r) := fun _ h => h

theorem held_withSr {s : State} (h : s.Held) (r : StatusReg) : (s.withSr r).Held :=
  ⟨h.w15, h.splim, h.pc, h.loopRegs, h.modcon, h.xbrev, h.modulo, h.dataForm, h.dataRange, h.progForm, h.div, h.edt,
    h.jump⟩

theorem keeps_modSr (f : StatusReg → StatusReg) : Keeps (modSr f) := fun s h => held_withSr h (f s.sr)

theorem keeps_draw (n : Nat) : Keeps (draw n) := fun _ h =>
  ⟨h.w15, h.splim, h.pc, h.loopRegs, h.modcon, h.xbrev, h.modulo, h.dataForm, h.dataRange, h.progForm, h.div, h.edt,
    h.jump⟩

/-! ### W registers -/

theorem readW_setW_15 (s : State) (r : RegNum) (v : Word) (h : evenBits (s.readW 15) = true) :
    evenBits ((s.setW r v).readW 15) = true := by
  unfold State.setW State.readW at *
  by_cases e : r = 15
  · subst e
    simp [evenBits_evenWord]
  · have : r.toNat ≠ 15 := fun h' => e (BitVec.eq_of_toNat_eq h')
    simpa [Vector.getElem_set, this, e] using h

theorem held_setW {s : State} (h : s.Held) (r : RegNum) (v : Word) : (s.setW r v).Held :=
  ⟨readW_setW_15 s r v h.w15, h.splim, h.pc, h.loopRegs, h.modcon, h.xbrev, h.modulo, h.dataForm, h.dataRange,
    h.progForm, h.div, h.edt, h.jump⟩

theorem held_setInit {s : State} (h : s.Held) (r : RegNum) : (s.setInit r).Held :=
  ⟨h.w15, h.splim, h.pc, h.loopRegs, h.modcon, h.xbrev, h.modulo, h.dataForm, h.dataRange, h.progForm, h.div, h.edt,
    h.jump⟩

theorem held_mark {s : State} (h : s.Held) (f : Recent → Recent) : (s.mark f).Held :=
  ⟨h.w15, h.splim, h.pc, h.loopRegs, h.modcon, h.xbrev, h.modulo, h.dataForm, h.dataRange, h.progForm, h.div, h.edt,
    h.jump⟩

theorem held_markLoop {s : State} (h : s.Held) : s.markLoop.Held :=
  ⟨h.w15, h.splim, h.pc, h.loopRegs, h.modcon, h.xbrev, h.modulo, h.dataForm, h.dataRange, h.progForm, h.div, h.edt,
    h.jump⟩

theorem held_markWrote {s : State} (h : s.Held) (r : RegNum) : (s.markWrote r).Held :=
  held_mark h fun m => { m with wrote := m.wrote ||| regBit r }

theorem held_markSrcEa {s : State} (h : s.Held) (r : RegNum) : (s.markSrcEa r).Held :=
  ⟨h.w15, h.splim, h.pc, h.loopRegs, h.modcon, h.xbrev, h.modulo, h.dataForm, h.dataRange, h.progForm, h.div, h.edt,
    h.jump⟩

theorem held_putWord {s : State} (h : s.Held) (r : RegNum) (v : Word) : (s.putWord r v).Held :=
  held_markWrote (held_setInit (held_setW h r v) r) r

theorem held_putByte {s : State} (h : s.Held) (r : RegNum) (v : Byte) : (s.putByte r v).Held :=
  held_markWrote (held_setW h r _) r

theorem keeps_writeWord (r : RegNum) (v : Word) : Keeps (writeWord r v) := fun _ h => held_putWord h r v

theorem keeps_writeByte (r : RegNum) (v : Byte) : Keeps (writeByte r v) := fun _ h => held_putByte h r v

theorem keeps_writeReg (byte : Bool) (r : RegNum) (v : Word) : Keeps (writeReg byte r v) :=
  keeps_ite (keeps_writeByte r _) (keeps_writeWord r v)

/-! ### CPU registers in data space -/

theorem keeps_readSfr (r : Sfr) : Keeps (readSfr r) := by
  intro s h
  unfold KeepsAt
  cases e : s.sfrView r with
  | some v =>
    show Stays (match s.sfrView r with | some v => _ | none => _)
    rw [e]
    show Stays (if (r == .doendl || r == .doendh) && s.last.doend then _ else _)
    split
    · trivial
    · exact h
  | none =>
    show Stays (match s.sfrView r with | some v => _ | none => _)
    rw [e]
    exact keeps_draw 16 s h

theorem keeps_writeSr (v : Word) : Keeps (writeSr v) := fun _ h =>
  ⟨h.w15, h.splim, h.pc, h.loopRegs, h.modcon, h.xbrev, h.modulo, h.dataForm, h.dataRange, h.progForm, h.div, h.edt,
    h.jump⟩

theorem keeps_writeCorcon (v : Word) : Keeps (writeCorcon v) := by
  refine keeps_getS fun s h => keepsAt_bind (keeps_stopRefused _ _ s h) fun _ t e ht => ?_
  have e : t = s := by
    revert e
    unfold stopIf EStateM.run
    split
    · simp
    · intro e; cases e; rfl
  subst e
  have h2 : ({ t with corcon := t.corcon.written v } : State).Held :=
    ⟨ht.w15, ht.splim, ht.pc, ht.loopRegs, ht.modcon, ht.xbrev, ht.modulo, ht.dataForm, ht.dataRange, ht.progForm,
      ht.div, ht.edt, ht.jump⟩
  show KeepsAt (if v.getLsbD 11 && t.da then _ else _) ({ t with corcon := t.corcon.written v } : State)
  by_cases hc : (v.getLsbD 11 && t.da) = true
  · rw [if_pos hc]
    refine ⟨h2.w15, h2.splim, h2.pc, h2.loopRegs, h2.modcon, h2.xbrev, h2.modulo, h2.dataForm, h2.dataRange,
      h2.progForm, h2.div, fun _ => ?_, h2.jump⟩
    rw [Bool.and_eq_true] at hc
    simpa [State.da, CoreControl.written] using hc.2
  · rw [if_neg hc]; exact h2

theorem keeps_writeMappedW (r : RegNum) (v : Word) (b : Bool) : Keeps (writeMappedW r v b) := by
  refine keeps_modS fun s h => ?_
  have h1 : ((s.setW r v).markWrote r).Held := held_markWrote (held_setW h r v) r
  show (if b && s.dev.mmapWordWriteInitsW then _ else _ : State).Held
  split
  · exact held_setInit h1 r
  · exact h1

theorem held_setAcc {s : State} (h : s.Held) (a : Acc) (v : AccWord) : (s.setAcc a v).Held :=
  ⟨h.w15, h.splim, h.pc, h.loopRegs, h.modcon, h.xbrev, h.modulo, h.dataForm, h.dataRange, h.progForm, h.div, h.edt,
    h.jump⟩

theorem keeps_writeSfr (r : Sfr) (v : Word) (b : Bool) : Keeps (writeSfr r v b) := by
  cases r with
  | w n => exact keeps_writeMappedW n v b
  | sr => exact keeps_writeSr v
  | corcon => exact keeps_writeCorcon v
  | pcl => exact keeps_refused _
  | pch => exact keeps_refused _
  | accL a => exact fun s h => held_setAcc h a _
  | accH a => exact fun s h => held_setAcc h a _
  | accU a => exact fun s h => held_setAcc h a _
  | splim =>
    exact fun s h => held_mark (s := { s with splim := evenWord v, splimArmed := s.splimArmed || b })
      ⟨h.w15, evenBits_evenWord v, h.pc, h.loopRegs, h.modcon, h.xbrev, h.modulo, h.dataForm, h.dataRange, h.progForm,
        h.div, h.edt, h.jump⟩ _
  | tblpag | psvpag | rcount | disicnt | dcount =>
    exact fun s h =>
      ⟨h.w15, h.splim, h.pc, h.loopRegs, h.modcon, h.xbrev, h.modulo, h.dataForm, h.dataRange, h.progForm, h.div,
        h.edt, h.jump⟩
  | dostartl | dostarth | doendl | doendh =>
    intro s h
    have hl := h.loopRegs
    simp only [Bool.and_eq_true] at hl
    refine ⟨h.w15, h.splim, h.pc, ?_, h.modcon, h.xbrev, h.modulo, h.dataForm, h.dataRange, h.progForm, h.div,
      h.edt, h.jump⟩
    simp [State.mark, State.markLoop, evenBits_withPcLow, evenBits_withPcHigh, hl]
  | modcon =>
    intro s h
    refine keepsAt_bind (keeps_stopRefused _ _ s h) fun _ t e ht => ?_
    have hv : (v.getLsbD 15 || v.getLsbD 14) = false := by
      revert e
      unfold stopIf EStateM.run
      cases v.getLsbD 15 || v.getLsbD 14 <;> simp
    refine ⟨ht.w15, ht.splim, ht.pc, ht.loopRegs, ?_, ht.xbrev, ht.modulo, ht.dataForm, ht.dataRange, ht.progForm,
      ht.div, ht.edt, ht.jump⟩
    simp only [Bool.or_eq_false_iff] at hv
    apply BitVec.eq_of_getLsbD_eq
    intro i hi
    have : i = 0 ∨ i = 1 ∨ i = 2 ∨ i = 3 := by omega
    rcases this with rfl | rfl | rfl | rfl <;> simp <;> simpa using (by first | exact hv.1 | exact hv.2)
  | xbrev =>
    intro s h
    refine keepsAt_bind (keeps_stopRefused _ _ s h) fun _ t e ht => ?_
    have hv : v.getLsbD 15 = false := by
      revert e
      unfold stopIf EStateM.run
      cases v.getLsbD 15 <;> simp
    exact ⟨ht.w15, ht.splim, ht.pc, ht.loopRegs, ht.modcon, hv, ht.modulo, ht.dataForm, ht.dataRange, ht.progForm,
      ht.div, ht.edt, ht.jump⟩
  | xmodsrt | xmodend | ymodsrt | ymodend =>
    intro s h
    have hl := h.modulo
    simp only [Bool.and_eq_true] at hl
    refine ⟨h.w15, h.splim, h.pc, h.loopRegs, h.modcon, h.xbrev, ?_, h.dataForm, h.dataRange, h.progForm, h.div,
      h.edt, h.jump⟩
    simp only [evenBits_evenWord, hl, Bool.and_true, Bool.true_and, BitVec.getLsbD_or] <;> simp

/-! ### Data and program memory -/

theorem keeps_progData (a : PcAddr) : Keeps (progData a) :=
  keeps_getS fun s h => keeps_bind (keeps_stopFault _ _) (fun _ => keeps_pure _) s h

theorem keeps_memRead (byte : Bool) (a : Word) : Keeps (memRead byte a) := by
  refine keeps_bind (keeps_addressErrorIf _) fun _ => keeps_getS fun s h => ?_
  split
  · exact keeps_bind (keeps_readSfr _) (fun _ => keeps_pure _) s h
  · refine keeps_ite ?_ ?_ s h
    · refine keeps_bind (keeps_progData _) fun _ => keeps_bind (keeps_modS fun s h => ?_) fun _ => keeps_pure _
      exact ⟨h.w15, h.splim, h.pc, h.loopRegs, h.modcon, h.xbrev, h.modulo, h.dataForm, h.dataRange, h.progForm, h.div,
        h.edt, h.jump⟩
    · exact keeps_bind (keeps_noMemory _ _ _) fun _ => keeps_pure _

theorem held_store {s : State} (h : s.Held) {byte : Bool} {a : Word} (hr : s.inRam a (if byte then 1 else 2) = true)
    (v : Word) : (s.store byte a v).Held := by
  simp only [State.inRam, Bool.and_eq_true, decide_eq_true_eq] at hr
  refine ⟨h.w15, h.splim, h.pc, h.loopRegs, h.modcon, h.xbrev, h.modulo, store_wf h.dataForm byte a v, ?_, h.progForm,
    h.div, h.edt, h.jump⟩
  cases byte
  · simp only [Bool.false_eq_true, if_false] at hr
    have h1 : a.toNat + 1 ≤ s.dev.ramTop.toNat := by omega
    exact Memory.within_write (Memory.within_write h.dataRange hr.1 (Nat.le_of_succ_le h1)) (by omega) h1
  · simp only [if_true] at hr
    have h1 : a.toNat ≤ s.dev.ramTop.toNat := by omega
    exact Memory.within_write h.dataRange hr.1 h1

theorem keeps_memWrite (byte : Bool) (a v : Word) : Keeps (memWrite byte a v) := by
  refine keeps_bind (keeps_addressErrorIf _) fun _ => keeps_getS fun s h => ?_
  split
  · exact keeps_ite (keeps_writeSfr _ _ _) (keeps_writeSfr _ _ _) s h
  · refine keepsAt_bind (keeps_stopFault _ _ s h) fun _ t e ht => ?_
    have e : t = s := by
      revert e
      unfold stopIf EStateM.run
      split
      · simp
      · intro e; cases e; rfl
    subst e
    refine keepsAt_bind (keeps_noMemory _ _ _ t h) fun _ u e hu => ?_
    revert e
    unfold stopIf EStateM.run
    cases hr : t.inRam a (if byte then 1 else 2)
    · simp
    · intro e
      cases e
      exact held_store hu hr v

/-! ### The device Reset, pointers and the stack -/

theorem deviceReset_data (s : State) : (deviceReset s).data = ramAfterReset s.dev s.free := by simp only [deviceReset]
theorem deviceReset_dev (s : State) : (deviceReset s).dev = s.dev := rfl
theorem deviceReset_prog (s : State) : (deviceReset s).prog = s.prog := rfl
theorem deviceReset_div (s : State) : (deviceReset s).div = none := rfl
theorem deviceReset_edtPending (s : State) : (deviceReset s).edtPending = none := rfl
theorem deviceReset_jump (s : State) : (deviceReset s).cur.jump = some 0 := rfl
theorem deviceReset_readW_15 (s : State) : (deviceReset s).readW 15 = 0x0800 := rfl
theorem deviceReset_modcon (s : State) : (deviceReset s).modcon = 0 := rfl
theorem deviceReset_xbrev (s : State) : (deviceReset s).xbrev = 0 := rfl
theorem deviceReset_splim (s : State) : (deviceReset s).splim = 0 := rfl
theorem deviceReset_pc (s : State) : (deviceReset s).pc = 0 := rfl

theorem deviceReset_held {s : State} (h : s.Held) : (deviceReset s).Held where
  w15 := by rw [deviceReset_readW_15]; decide
  splim := by rw [deviceReset_splim]; decide
  pc := by rw [deviceReset_pc]; decide
  loopRegs := by simp only [deviceReset, evenBits_evenPc, Bool.and_self]
  modcon := by rw [deviceReset_modcon]; decide
  xbrev := by rw [deviceReset_xbrev]; decide
  modulo := by simp only [deviceReset, evenBits_evenWord, BitVec.getLsbD_or]; simp
  dataForm := by rw [deviceReset_data]; exact ramAfterReset_wf s.dev s.free
  dataRange := by rw [deviceReset_data, deviceReset_dev]; exact ramAfterReset_within s.dev s.free
  progForm := by rw [deviceReset_prog]; exact h.progForm
  div := by rw [deviceReset_div]; simp
  edt := by rw [deviceReset_edtPending]; simp
  jump := by rw [deviceReset_jump]; simp [evenBits]

theorem keeps_ptr (r : RegNum) : Keeps (ptr r) := by
  intro s h
  show Stays (if s.initialised r then _ else _)
  split
  · exact h
  · exact deviceReset_held h

theorem keeps_checkStack (ea : Word) (w : Bool) : Keeps (checkStack ea w) := by
  intro s h
  show Stays (if s.stackBad ea w then _ else _)
  split
  · cases s.dev.faultingAccessPerformed <;> exact held_pend h .stack
  · exact h

theorem keeps_checkEa (b : Bool) (ea : Word) (w : Bool) : Keeps (checkEa b ea w) :=
  keeps_ite (keeps_checkStack ea w) (keeps_pure _)

theorem keeps_sourceThrough (r : RegNum) : Keeps (sourceThrough r) :=
  keeps_getS fun s h => keeps_bind (keeps_stopRefused _ _) (fun _ => keeps_modS fun _ h => held_markSrcEa h r) s h

theorem keeps_push (v : Word) : Keeps (push v) :=
  keeps_bind (keeps_readW _) fun _ => keeps_bind (keeps_checkStack _ _) fun _ =>
    keeps_bind (keeps_memWrite _ _ _) fun _ => keeps_bind (keeps_readW _) fun _ => keeps_writeWord _ _

theorem keeps_pop : Keeps pop :=
  keeps_bind (keeps_readW _) fun _ => keeps_bind (keeps_sourceThrough _) fun _ => keeps_bind (keeps_writeWord _ _) fun _ =>
    keeps_bind (keeps_readW _) fun _ => keeps_bind (keeps_checkStack _ _) fun _ => keeps_memRead _ _

theorem keeps_jumpTo (a : PcAddr) : Keeps (jumpTo a) := fun _ h =>
  ⟨h.w15, h.splim, h.pc, h.loopRegs, h.modcon, h.xbrev, h.modulo, h.dataForm, h.dataRange, h.progForm, h.div, h.edt,
    by rintro b e; cases e; exact evenBits_evenPc a⟩

theorem keeps_pushPcCall (a : PcAddr) : Keeps (pushPcCall a) :=
  keeps_bind (keeps_push _) fun _ => keeps_push _

theorem keeps_returnFromCall : Keeps returnFromCall :=
  keeps_bind keeps_pop fun _ => keeps_bind keeps_pop fun _ => keeps_jumpTo _

theorem keeps_returnFromException : Keeps returnFromException :=
  keeps_bind keeps_pop fun _ => keeps_bind keeps_pop fun _ => keeps_bind
    (keeps_modS fun _ h =>
      ⟨h.w15, h.splim, h.pc, h.loopRegs, h.modcon, h.xbrev, h.modulo, h.dataForm, h.dataRange, h.progForm, h.div, h.edt,
        h.jump⟩) fun _ => keeps_jumpTo _

theorem keeps_pushInEntry (v : Word) : Keeps (pushInEntry v) :=
  keeps_bind (keeps_readW _) fun _ => keeps_bind (keeps_modS fun _ h => by split; exact held_pend h .stack; exact h) fun _ =>
    keeps_bind (keeps_memWrite _ _ _) fun _ => keeps_bind (keeps_readW _) fun _ => keeps_writeWord _ _

theorem keeps_enterException (e : Exc) : Keeps (enterException e) := by
  refine keeps_getS fun s h => keeps_bind (keeps_pushInEntry _) (fun _ => keeps_getS fun t ht =>
    keeps_bind (keeps_pushInEntry _) (fun _ => keeps_bind (keeps_modS fun u hu => ?_) fun _ => keeps_modS fun u hu => ?_)
      t ht) s h
  · cases e <;>
      exact ⟨hu.w15, hu.splim, hu.pc, hu.loopRegs, hu.modcon, hu.xbrev, hu.modulo, hu.dataForm, hu.dataRange,
        hu.progForm, hu.div, hu.edt, hu.jump⟩
  · exact ⟨hu.w15, hu.splim, evenBits_evenPc _, hu.loopRegs, hu.modcon, hu.xbrev, hu.modulo, hu.dataForm, hu.dataRange,
      hu.progForm, hu.div, hu.edt, by rintro a e; cases e⟩

/-! ### Operands -/

theorem keeps_modifyPointer (r : RegNum) (p : Option Word) : Keeps (modifyPointer r p) := by
  refine keeps_modS fun s h => ?_
  cases p
  · exact h
  · exact held_putWord h r _

theorem keeps_operandAddress (b : RegNum) (step : Word) (o : Operand) : Keeps (operandAddress b step o) := by
  refine keeps_bind (keeps_ptr _) fun _ => keeps_bind (keeps_readW _) fun _ => keeps_ite ?_ ?_
  · exact keeps_bind (keeps_modifyPointer _ _) fun _ => keeps_bind (keeps_readW _) fun _ =>
      keeps_bind (keeps_checkEa _ _ _) fun _ => keeps_pure _
  · exact keeps_bind (keeps_checkEa _ _ _) fun _ => keeps_bind (keeps_modifyPointer _ _) fun _ => keeps_pure _

theorem keeps_sourceAddress (b : RegNum) (step : Word) (o : Operand) : Keeps (sourceAddress b step o) := by
  refine keeps_bind (keeps_sourceThrough _) fun _ => ?_
  split
  · exact keeps_bind (keeps_sourceThrough _) fun _ => keeps_operandAddress _ _ _
  · exact keeps_operandAddress _ _ _

theorem keeps_readOperand (b : RegNum) (byte : Bool) (o : Operand) : Keeps (readOperand b byte o) :=
  keeps_ite (keeps_bind (keeps_readW _) fun _ => keeps_pure _)
    (keeps_bind (keeps_sourceAddress _ _ _) fun _ => keeps_memRead _ _)

theorem keeps_writeOperand (b : RegNum) (byte : Bool) (o : Operand) (v : Word) : Keeps (writeOperand b byte o v) :=
  keeps_ite (keeps_writeReg _ _ _) (keeps_bind (keeps_operandAddress _ _ _) fun _ => keeps_memWrite _ _ _)

theorem keeps_writeFileOrWreg (byte toFile : Bool) (f : BitVec 13) (v : Word) :
    Keeps (writeFileOrWreg byte toFile f v) := keeps_ite (keeps_memWrite _ _ _) (keeps_writeReg _ _ _)

theorem keeps_refuseConflict (c : Bool) : Keeps (refuseConflict c) := keeps_stopRefused _ _

theorem keeps_refuseOdd (r : RegNum) : Keeps (refuseOdd r) := keeps_stopRefused _ _

theorem keeps_unaryOp {byte : Bool} {dst src : Operand} {f : Word → M Word} (h : ∀ v, Keeps (f v)) :
    Keeps (unaryOp byte dst src f) :=
  keeps_bind (keeps_refuseConflict _) fun _ => keeps_bind (keeps_readOperand _ _ _) fun v => keeps_bind (h v) fun _ =>
    keeps_writeOperand _ _ _ _

theorem keeps_fileOp {byte toFile : Bool} {f : BitVec 13} {g : Word → M Word} (h : ∀ v, Keeps (g v)) :
    Keeps (fileOp byte toFile f g) :=
  keeps_bind (keeps_memRead _ _) fun v => keeps_bind (h v) fun _ => keeps_writeFileOrWreg _ _ _ _

theorem keeps_aluAdd (byte : Bool) (a b : Word) : Keeps (aluAdd byte a b) :=
  keeps_ite (keeps_bind (keeps_modSr _) fun _ => keeps_pure _) (keeps_bind (keeps_modSr _) fun _ => keeps_pure _)

theorem keeps_aluShiftOne (k : ShiftKind) (byte : Bool) (a : Word) : Keeps (aluShiftOne k byte a) :=
  keeps_ite (keeps_bind (keeps_modSr _) fun _ => keeps_pure _) (keeps_bind (keeps_modSr _) fun _ => keeps_pure _)

theorem keeps_aluShiftMany (k : ShiftKind) (a : Word) (n : Nat) : Keeps (aluShiftMany k a n) :=
  keeps_bind (keeps_modSr _) fun _ => keeps_pure _

/-- An instruction whose operation keeps the invariant answers only states that hold it. -/
theorem outcome_held {m : M Unit} {s t : State} (hm : Keeps m) (hs : s.Held) (h : outcome m s = .next t) : t.Held := by
  have hk := hm s hs
  unfold KeepsAt Stays at hk
  rcases outcome_next h with e | e <;> rw [e] at hk <;> exact hk

end Sys2Proof.Machine
end

