-- ==== Sys2Proof/Laws/Frame.lean ====
section
/-! SUPPORT. Frames: how `SameRest`, `RegsKept` and `RamKeptOutside` compose, and one lemma for each shared update that
says what it leaves alone. -/

namespace Sys2Proof.Machine

/-! ### How frames compose -/

theorem SameRest.refl (s : State) : SameRest s s := by constructor <;> simp

theorem SameRest.trans {s t u : State} (h : SameRest s t) (k : SameRest t u) : SameRest s u where
  pc := k.pc.trans h.pc
  corcon := k.corcon.trans h.corcon
  stackLimit := ⟨k.stackLimit.1.trans h.stackLimit.1, k.stackLimit.2.trans h.stackLimit.2⟩
  pages := ⟨k.pages.1.trans h.pages.1, k.pages.2.trans h.pages.2⟩
  counts := ⟨k.counts.1.trans h.counts.1, k.counts.2.1.trans h.counts.2.1, k.counts.2.2.trans h.counts.2.2⟩
  loop := ⟨k.loop.1.trans h.loop.1, k.loop.2.trans h.loop.2⟩
  loopShadows := ⟨k.loopShadows.1.trans h.loopShadows.1, k.loopShadows.2.1.trans h.loopShadows.2.1,
    k.loopShadows.2.2.trans h.loopShadows.2.2⟩
  modulo := ⟨k.modulo.1.trans h.modulo.1, k.modulo.2.1.trans h.modulo.2.1, k.modulo.2.2.1.trans h.modulo.2.2.1,
    k.modulo.2.2.2.1.trans h.modulo.2.2.2.1, k.modulo.2.2.2.2.1.trans h.modulo.2.2.2.2.1,
    k.modulo.2.2.2.2.2.trans h.modulo.2.2.2.2.2⟩
  accumulators := ⟨k.accumulators.1.trans h.accumulators.1, k.accumulators.2.trans h.accumulators.2⟩
  shadows := ⟨k.shadows.1.trans h.shadows.1, k.shadows.2.trans h.shadows.2⟩
  edtPending := k.edtPending.trans h.edtPending
  div := k.div.trans h.div
  traps := ⟨k.traps.1.trans h.traps.1, k.traps.2.trans h.traps.2⟩
  prog := k.prog.trans h.prog
  inputs := ⟨k.inputs.1.trans h.inputs.1, k.inputs.2.trans h.inputs.2⟩
  dev := k.dev.trans h.dev

theorem RegsKept.refl (s : State) (l : List RegNum) : RegsKept s s l := fun _ _ => ⟨rfl, rfl⟩

theorem RegsKept.trans {s t u : State} {l m : List RegNum} (h : RegsKept s t l) (k : RegsKept t u m) :
    RegsKept s u (l ++ m) := fun r hr => by
  rw [List.mem_append, not_or] at hr
  exact ⟨(k r hr.2).1.trans (h r hr.1).1, (k r hr.2).2.trans (h r hr.1).2⟩

theorem RegsKept.mono {s t : State} {l m : List RegNum} (h : RegsKept s t l) (hl : l ⊆ m) : RegsKept s t m :=
  fun r hr => h r fun hm => hr (hl hm)

/-! ### What the updates leave alone -/

theorem putWord_sameRest (s : State) (r : RegNum) (v : Word) : SameRest s (s.putWord r v) := by constructor <;> simp

theorem putByte_sameRest (s : State) (r : RegNum) (v : Byte) : SameRest s (s.putByte r v) := by constructor <;> simp

theorem store_sameRest (s : State) (byte : Bool) (a v : Word) : SameRest s (s.store byte a v) := by constructor <;> simp

theorem withSr_sameRest (s : State) (r : StatusReg) : SameRest s (s.withSr r) := by constructor <;> simp

theorem markSrcEa_sameRest (s : State) (r : RegNum) : SameRest s (s.markSrcEa r) := by constructor <;> simp

theorem movePointer_sameRest (s : State) (r : RegNum) (p : Option Word) : SameRest s (s.movePointer r p) := by
  constructor <;> simp

theorem afterRead_sameRest (s : State) (a : Word) : SameRest s (s.afterRead a) := by
  unfold State.afterRead
  split
  · constructor <;> simp
  · exact SameRest.refl s

theorem putReg_sameRest (s : State) (byte : Bool) (r : RegNum) (v : Word) : SameRest s (s.putReg byte r v) := by
  cases byte
  · exact putWord_sameRest s r v
  · exact putByte_sameRest s r _

theorem sourceMarked_sameRest (s : State) (b : RegNum) (o : Operand) : SameRest s (s.sourceMarked b o) := by
  unfold State.sourceMarked
  split <;> constructor <;> simp

theorem beforeSourceRead_sameRest (s : State) (b : RegNum) (step : Word) (o : Operand) :
    SameRest s (s.beforeSourceRead b step o) :=
  (sourceMarked_sameRest s b o).trans (movePointer_sameRest _ _ _)

theorem afterSource_sameRest (s : State) (b : RegNum) (byte : Bool) (o : Operand) :
    SameRest s (s.afterSource b byte o) := by
  unfold State.afterSource
  split
  · exact SameRest.refl s
  · exact (beforeSourceRead_sameRest s b _ o).trans (afterRead_sameRest _ _)

theorem afterDest_sameRest (s : State) (b : RegNum) (byte : Bool) (o : Operand) (v : Word) :
    SameRest s (s.afterDest b byte o v) := by
  unfold State.afterDest
  split
  · exact putReg_sameRest s byte o.reg v
  · exact (movePointer_sameRest s _ _).trans (store_sameRest _ _ _ _)

theorem afterFile_sameRest (s : State) (byte toFile : Bool) (f : BitVec 13) (v : Word) :
    SameRest s (s.afterFile byte toFile f v) := by
  unfold State.afterFile
  split
  · exact store_sameRest _ _ _ _
  · exact putReg_sameRest _ _ _ _

theorem pushed_sameRest (s : State) (v : Word) : SameRest s (s.pushed v) :=
  (store_sameRest s _ _ _).trans (putWord_sameRest _ _ _)

theorem beforePopRead_sameRest (s : State) : SameRest s s.beforePopRead :=
  (markSrcEa_sameRest s _).trans (putWord_sameRest _ _ _)

theorem popped_sameRest (s : State) : SameRest s s.popped := (beforePopRead_sameRest s).trans (afterRead_sameRest _ _)

/-! ### SR and data RAM -/

@[simp] theorem afterRead_sr (s : State) (a : Word) : (s.afterRead a).sr = s.sr := by
  unfold State.afterRead; split <;> rfl
@[simp] theorem afterRead_data (s : State) (a : Word) : (s.afterRead a).data = s.data := by
  unfold State.afterRead; split <;> rfl
@[simp] theorem afterRead_last (s : State) (a : Word) : (s.afterRead a).last = s.last := by
  unfold State.afterRead; split <;> rfl
@[simp] theorem readW_afterRead (s : State) (a : Word) (r : RegNum) : (s.afterRead a).readW r = s.readW r := by
  unfold State.afterRead; split <;> rfl
@[simp] theorem initialised_afterRead (s : State) (a : Word) (r : RegNum) :
    (s.afterRead a).initialised r = s.initialised r := by
  unfold State.afterRead; split <;> rfl

/-- A file register lies below the PSV window, so reading one leaves the state as it is. -/
@[simp] theorem afterRead_fileAddress (s : State) (f : BitVec 13) : s.afterRead (fileAddress f) = s := by
  have h : (fileAddress f).getLsbD 15 = false := by
    rw [fileAddress, BitVec.getLsbD_setWidth, BitVec.getLsbD_of_ge f 15 (by decide), Bool.and_false]
  rw [State.afterRead, h, Bool.and_false]
  rfl

@[simp] theorem beforeSourceRead_sr (s : State) (b : RegNum) (step : Word) (o : Operand) :
    (s.beforeSourceRead b step o).sr = s.sr := by
  unfold State.beforeSourceRead State.modified State.sourceMarked
  split <;> simp
@[simp] theorem beforeSourceRead_data (s : State) (b : RegNum) (step : Word) (o : Operand) :
    (s.beforeSourceRead b step o).data = s.data := by
  unfold State.beforeSourceRead State.modified State.sourceMarked
  split <;> simp
@[simp] theorem afterSource_sr (s : State) (b : RegNum) (byte : Bool) (o : Operand) :
    (s.afterSource b byte o).sr = s.sr := by
  unfold State.afterSource; split <;> simp
@[simp] theorem afterSource_data (s : State) (b : RegNum) (byte : Bool) (o : Operand) :
    (s.afterSource b byte o).data = s.data := by
  unfold State.afterSource; split <;> simp
@[simp] theorem putReg_sr (s : State) (byte : Bool) (r : RegNum) (v : Word) : (s.putReg byte r v).sr = s.sr := by
  cases byte <;> rfl
@[simp] theorem putReg_data (s : State) (byte : Bool) (r : RegNum) (v : Word) : (s.putReg byte r v).data = s.data := by
  cases byte <;> rfl
@[simp] theorem afterDest_sr (s : State) (b : RegNum) (byte : Bool) (o : Operand) (v : Word) :
    (s.afterDest b byte o v).sr = s.sr := by
  unfold State.afterDest State.modified; split <;> simp
@[simp] theorem afterFile_sr (s : State) (byte toFile : Bool) (f : BitVec 13) (v : Word) :
    (s.afterFile byte toFile f v).sr = s.sr := by
  unfold State.afterFile; split <;> simp

/-- A destination's readiness does not depend on SR. -/
theorem destReady_withSr (s : State) (q : StatusReg) (b : RegNum) (byte : Bool) (o : Operand) :
    (s.withSr q).destReady b byte o = s.destReady b byte o := rfl

/-! ### Registers -/

theorem putWord_regsKept (s : State) (r : RegNum) (v : Word) : RegsKept s (s.putWord r v) [r] := fun q hq => by
  have h : ¬ r = q := fun e => hq (by simp [e])
  rw [readW_putWord, initialised_putWord, if_neg h]
  exact ⟨rfl, by simp [h]⟩

theorem putByte_regsKept (s : State) (r : RegNum) (v : Byte) : RegsKept s (s.putByte r v) [r] := fun q hq => by
  have h : ¬ r = q := fun e => hq (by simp [e])
  rw [readW_putByte, if_neg h]
  exact ⟨rfl, rfl⟩

theorem putReg_regsKept (s : State) (byte : Bool) (r : RegNum) (v : Word) : RegsKept s (s.putReg byte r v) [r] := by
  cases byte
  · exact putWord_regsKept s r v
  · exact putByte_regsKept s r _

theorem movePointer_regsKept (s : State) (step : Word) (o : Operand) :
    RegsKept s (s.modified step o) (operandChanged o) := by
  rcases o with ⟨m, r⟩
  cases m <;> first | exact RegsKept.refl s _ | exact putWord_regsKept s r _

theorem sourceMarked_regsKept (s : State) (b : RegNum) (o : Operand) : RegsKept s (s.sourceMarked b o) [] := by
  unfold State.sourceMarked
  split <;> exact fun _ _ => ⟨rfl, rfl⟩

theorem beforeSourceRead_regsKept (s : State) (b : RegNum) (step : Word) (o : Operand) :
    RegsKept s (s.beforeSourceRead b step o) (operandChanged o) :=
  ((sourceMarked_regsKept s b o).trans (movePointer_regsKept _ step o)).mono (by simp)

theorem afterSource_regsKept (s : State) (b : RegNum) (byte : Bool) (o : Operand) :
    RegsKept s (s.afterSource b byte o) (operandChanged o) := by
  unfold State.afterSource
  split
  · exact RegsKept.refl s _
  · exact fun r hr => by
      have h := beforeSourceRead_regsKept s b (stepOf byte) o r hr
      simpa using h

theorem afterDest_regsKept (s : State) (b : RegNum) (byte : Bool) (o : Operand) (v : Word) :
    RegsKept s (s.afterDest b byte o v) (destChanged o) := by
  unfold State.afterDest destChanged
  by_cases h : o.isDirect = true
  · rw [if_pos h, h, Bool.or_true, if_pos rfl]
    exact putReg_regsKept s byte o.reg v
  · have h' : o.isDirect = false := by simpa using h
    rw [if_neg h, h', Bool.or_false]
    exact fun r hr => movePointer_regsKept s (stepOf byte) o r hr

/-! ### Data RAM -/

/-- A store leaves every byte outside the stored ones as it reads. -/
theorem store_ramKept (s : State) (byte : Bool) (a v : Word) :
    RamKeptOutside s (s.store byte a v) a.toNat (if byte then 1 else 2) := fun k hk => by
  cases byte
  · simp only [Bool.false_eq_true, if_false] at hk
    show ((s.data.write _ _).write _ _).read k = _
    rw [Memory.read_write_other _ (by omega), Memory.read_write_other _ (by omega)]
  · simp only [if_true] at hk
    show (s.data.write _ _).read k = _
    rw [Memory.read_write_other _ (by omega)]

/-- A word stored in RAM in canonical form reads back. -/
theorem load_store_word {s : State} (h : s.data.wf = true) (a v : Word) : (s.store false a v).load false a = v := by
  show (((s.data.write _ _).write _ _).read _ ++ ((s.data.write _ _).write _ _).read _ : BitVec 16) = v
  rw [Memory.read_write_same (Memory.wf_write h _ _), Memory.read_write_other _ (by omega), Memory.read_write_same h]
  apply BitVec.eq_of_getLsbD_eq
  intro i hi
  rw [BitVec.getLsbD_append]
  by_cases h8 : i < 8
  · simp [h8]
  · simp [h8, show 8 + (i - 8) = i by omega, show i - 8 < 8 by omega]

end Sys2Proof.Machine
end

