-- ==== Sys2Proof/Laws/PerInstr.lean ====
section
/-! SUPPORT. The family FirstWord: what the first word of every instruction says about its length (R151). -/

namespace Sys2Proof.Laws

/-- The first word of the encoding announces the number of words that the encoding has (R151). -/
def FirstWord.Statement (i : Instr) : Prop :=
  (encode i).head?.map firstWordLength = some i.words ∧ (encode i).length = i.words

/-- A one-word encoding whose top four bits are not all 0. -/
theorem FirstWord.of_high (i : Instr) (w : ProgWord) (e : encode i = [w]) (h : field w 20 4 ≠ 0) (hw : i.words = 1) :
    FirstWord.Statement i := by
  simp [FirstWord.Statement, e, hw, firstWordLength_one w h]

/-- An encoding whose first word has this opcode byte. -/
theorem FirstWord.of_byte (i : Instr) (w : ProgWord) (ws : List ProgWord) (b : BitVec 8) (e : encode i = w :: ws)
    (h : field w 16 8 = b) (hb : firstWordLength (place 16 b) = i.words) (hl : ws.length + 1 = i.words) :
    FirstWord.Statement i := by
  have hf : field (place 16 b) 16 8 = b := by simp
  simp [FirstWord.Statement, e, hl, ← hb, firstWordLength, h, hf]

theorem FirstWord.nop : FirstWord.Statement .nop := by
  unfold FirstWord.Statement; decide

theorem FirstWord.call (target : PcAddr) : FirstWord.Statement (.call target) :=
  FirstWord.of_byte _ _ _ 2 rfl
    (by simp) rfl rfl

theorem FirstWord.goto (target : PcAddr) : FirstWord.Statement (.goto target) :=
  FirstWord.of_byte _ _ _ 4 rfl
    (by simp) rfl rfl

theorem FirstWord.retlw (byte : Bool) (lit : BitVec 10) (d : RegNum) : FirstWord.Statement (.retlw byte lit d) :=
  FirstWord.of_byte _ _ _ 5 rfl
    (by simp) rfl rfl

theorem FirstWord.ret : FirstWord.Statement .ret := by
  unfold FirstWord.Statement; decide

theorem FirstWord.retfie : FirstWord.Statement .retfie := by
  unfold FirstWord.Statement; decide

theorem FirstWord.rcall (off : BitVec 16) : FirstWord.Statement (.rcall off) :=
  FirstWord.of_byte _ _ _ 7 rfl
    (by simp) rfl rfl

theorem FirstWord.doLit (count : BitVec 14) (off : BitVec 16) : FirstWord.Statement (.doLit count off) :=
  FirstWord.of_byte _ _ _ 8 rfl
    (by simp) rfl rfl

theorem FirstWord.doReg (r : RegNum) (off : BitVec 16) : FirstWord.Statement (.doReg r off) :=
  FirstWord.of_byte _ _ _ 8 rfl
    (by simp) rfl rfl

theorem FirstWord.repeatLit (count : BitVec 14) : FirstWord.Statement (.repeatLit count) :=
  FirstWord.of_byte _ _ _ 9 rfl
    (by simp) rfl rfl

theorem FirstWord.repeatReg (r : RegNum) : FirstWord.Statement (.repeatReg r) :=
  FirstWord.of_byte _ _ _ 9 rfl
    (by simp) rfl rfl

theorem FirstWord.movLit16 (lit : BitVec 16) (d : RegNum) : FirstWord.Statement (.movLit16 lit d) :=
  FirstWord.of_high _ _ rfl (by simp) rfl

theorem FirstWord.bra (off : BitVec 16) : FirstWord.Statement (.bra off) :=
  FirstWord.of_high _ _ rfl (by simp) rfl

theorem FirstWord.addReg (b : RegNum) (byte : Bool) (dst src : Operand) : FirstWord.Statement (.addReg b byte dst src) :=
  FirstWord.of_high _ _ rfl (by simp) rfl

theorem FirstWord.addLit5 (b : RegNum) (byte : Bool) (dst : Operand) (lit : BitVec 5) : FirstWord.Statement (.addLit5 b byte dst lit) :=
  FirstWord.of_high _ _ rfl (by simp) rfl

theorem FirstWord.mov (b : RegNum) (byte : Bool) (dst src : Operand) : FirstWord.Statement (.mov b byte dst src) :=
  FirstWord.of_high _ _ rfl (by simp) rfl

theorem FirstWord.push (r : RegNum) : FirstWord.Statement (.push r) :=
  FirstWord.of_high _ _ rfl (by simp) rfl

theorem FirstWord.pop (d : RegNum) : FirstWord.Statement (.pop d) :=
  FirstWord.of_high _ _ rfl (by simp) rfl

theorem FirstWord.movFromFile (f : BitVec 16) (d : RegNum) : FirstWord.Statement (.movFromFile f d) :=
  FirstWord.of_high _ _ rfl (by simp) rfl

theorem FirstWord.movToFile (f : BitVec 16) (r : RegNum) : FirstWord.Statement (.movToFile f r) :=
  FirstWord.of_high _ _ rfl (by simp) rfl

theorem FirstWord.bsetInd (bit : BitVec 4) (byte : Bool) (src : Operand) : FirstWord.Statement (.bsetInd bit byte src) :=
  FirstWord.of_high _ _ rfl (by simp) rfl

theorem FirstWord.bclrInd (bit : BitVec 4) (byte : Bool) (src : Operand) : FirstWord.Statement (.bclrInd bit byte src) :=
  FirstWord.of_high _ _ rfl (by simp) rfl

theorem FirstWord.btscInd (bit : BitVec 4) (src : Operand) : FirstWord.Statement (.btscInd bit src) :=
  FirstWord.of_high _ _ rfl (by simp) rfl

theorem FirstWord.bsetFile (bit : BitVec 4) (f : BitVec 13) : FirstWord.Statement (.bsetFile bit f) :=
  FirstWord.of_high _ _ rfl (by simp) rfl

theorem FirstWord.bclrFile (bit : BitVec 4) (f : BitVec 13) : FirstWord.Statement (.bclrFile bit f) :=
  FirstWord.of_high _ _ rfl (by simp) rfl

theorem FirstWord.btscFile (bit : BitVec 4) (f : BitVec 13) : FirstWord.Statement (.btscFile bit f) :=
  FirstWord.of_high _ _ rfl (by simp) rfl

theorem FirstWord.addLit10 (byte : Bool) (lit : BitVec 10) (d : RegNum) : FirstWord.Statement (.addLit10 byte lit d) :=
  FirstWord.of_high _ _ rfl (by simp) rfl

theorem FirstWord.movLit8 (lit : BitVec 8) (d : RegNum) : FirstWord.Statement (.movLit8 lit d) :=
  FirstWord.of_high _ _ rfl (by simp) rfl

theorem FirstWord.addFile (byte toFile : Bool) (f : BitVec 13) : FirstWord.Statement (.addFile byte toFile f) :=
  FirstWord.of_high _ _ rfl (by simp) rfl

theorem FirstWord.movWregToFile (byte : Bool) (f : BitVec 13) : FirstWord.Statement (.movWregToFile byte f) :=
  FirstWord.of_high _ _ rfl (by simp) rfl

theorem FirstWord.mulUU (b d : RegNum) (src : Operand) : FirstWord.Statement (.mulUU b d src) :=
  FirstWord.of_high _ _ rfl (by simp) rfl

theorem FirstWord.mulUS (b d : RegNum) (src : Operand) : FirstWord.Statement (.mulUS b d src) :=
  FirstWord.of_high _ _ rfl (by simp) rfl

theorem FirstWord.mulSU (b d : RegNum) (src : Operand) : FirstWord.Statement (.mulSU b d src) :=
  FirstWord.of_high _ _ rfl (by simp) rfl

theorem FirstWord.mulSS (b d : RegNum) (src : Operand) : FirstWord.Statement (.mulSS b d src) :=
  FirstWord.of_high _ _ rfl (by simp) rfl

theorem FirstWord.tblrdl (byte : Bool) (dst src : Operand) : FirstWord.Statement (.tblrdl byte dst src) :=
  FirstWord.of_high _ _ rfl (by simp) rfl

theorem FirstWord.mulFile (byte : Bool) (f : BitVec 13) : FirstWord.Statement (.mulFile byte f) :=
  FirstWord.of_high _ _ rfl (by simp) rfl

theorem FirstWord.movDLoad (d : RegNum) (src : Operand) : FirstWord.Statement (.movDLoad d src) :=
  FirstWord.of_high _ _ rfl (by simp) rfl

theorem FirstWord.movDStore (dst : Operand) (r : RegNum) : FirstWord.Statement (.movDStore dst r) :=
  FirstWord.of_high _ _ rfl (by simp) rfl

theorem FirstWord.movFile (byte toFile : Bool) (f : BitVec 13) : FirstWord.Statement (.movFile byte toFile f) :=
  FirstWord.of_high _ _ rfl (by simp) rfl

theorem FirstWord.mac (m : MulPair) (a : Acc) (xd yd : BitVec 2) (x y : Prefetch) (wb : WriteBack) : FirstWord.Statement (.mac m a xd yd x y wb) :=
  FirstWord.of_high _ _ rfl (by simp) rfl

theorem FirstWord.mpy (m : MulPair) (a : Acc) (xd yd : BitVec 2) (x y : Prefetch) : FirstWord.Statement (.mpy m a xd yd x y) :=
  FirstWord.of_high _ _ rfl (by simp) rfl

theorem FirstWord.msc (m : MulPair) (a : Acc) (xd yd : BitVec 2) (x y : Prefetch) (wb : WriteBack) : FirstWord.Statement (.msc m a xd yd x y wb) :=
  FirstWord.of_high _ _ rfl (by simp) rfl

theorem FirstWord.mpyN (m : MulPair) (a : Acc) (xd yd : BitVec 2) (x y : Prefetch) : FirstWord.Statement (.mpyN m a xd yd x y) :=
  FirstWord.of_high _ _ rfl (by simp) rfl

theorem FirstWord.sftacReg (a : Acc) (r : RegNum) : FirstWord.Statement (.sftacReg a r) :=
  FirstWord.of_high _ _ rfl (by simp) rfl

theorem FirstWord.sftacLit (a : Acc) (amount : BitVec 6) : FirstWord.Statement (.sftacLit a amount) :=
  FirstWord.of_high _ _ rfl (by simp) rfl

theorem FirstWord.addAccSrc (a : Acc) (b : RegNum) (shift : BitVec 4) (src : Operand) : FirstWord.Statement (.addAccSrc a b shift src) :=
  FirstWord.of_high _ _ rfl (by simp) rfl

theorem FirstWord.lac (a : Acc) (b : RegNum) (shift : BitVec 4) (src : Operand) : FirstWord.Statement (.lac a b shift src) :=
  FirstWord.of_high _ _ rfl (by simp) rfl

theorem FirstWord.addAcc (a : Acc) : FirstWord.Statement (.addAcc a) :=
  FirstWord.of_high _ _ rfl (by simp) rfl

theorem FirstWord.sac (a : Acc) (b : RegNum) (shift : BitVec 4) (dst : Operand) : FirstWord.Statement (.sac a b shift dst) :=
  FirstWord.of_high _ _ rfl (by simp) rfl

theorem FirstWord.sacR (a : Acc) (b : RegNum) (shift : BitVec 4) (dst : Operand) : FirstWord.Statement (.sacR a b shift dst) :=
  FirstWord.of_high _ _ rfl (by simp) rfl

theorem FirstWord.slOne (byte : Bool) (dst src : Operand) : FirstWord.Statement (.slOne byte dst src) :=
  FirstWord.of_high _ _ rfl (by simp) rfl

theorem FirstWord.lsrOne (byte : Bool) (dst src : Operand) : FirstWord.Statement (.lsrOne byte dst src) :=
  FirstWord.of_high _ _ rfl (by simp) rfl

theorem FirstWord.asrOne (byte : Bool) (dst src : Operand) : FirstWord.Statement (.asrOne byte dst src) :=
  FirstWord.of_high _ _ rfl (by simp) rfl

theorem FirstWord.slFile (byte toFile : Bool) (f : BitVec 13) : FirstWord.Statement (.slFile byte toFile f) :=
  FirstWord.of_high _ _ rfl (by simp) rfl

theorem FirstWord.lsrFile (byte toFile : Bool) (f : BitVec 13) : FirstWord.Statement (.lsrFile byte toFile f) :=
  FirstWord.of_high _ _ rfl (by simp) rfl

theorem FirstWord.asrFile (byte toFile : Bool) (f : BitVec 13) : FirstWord.Statement (.asrFile byte toFile f) :=
  FirstWord.of_high _ _ rfl (by simp) rfl

theorem FirstWord.divSW (m n : RegNum) : FirstWord.Statement (.divSW m n) :=
  FirstWord.of_high _ _ rfl (by simp) rfl

theorem FirstWord.divSD (hi lo n : RegNum) : FirstWord.Statement (.divSD hi lo n) :=
  FirstWord.of_high _ _ rfl (by simp) rfl

theorem FirstWord.divUW (m n : RegNum) : FirstWord.Statement (.divUW m n) :=
  FirstWord.of_high _ _ rfl (by simp) rfl

theorem FirstWord.divUD (hi lo n : RegNum) : FirstWord.Statement (.divUD hi lo n) :=
  FirstWord.of_high _ _ rfl (by simp) rfl

theorem FirstWord.divF (m n : RegNum) : FirstWord.Statement (.divF m n) :=
  FirstWord.of_high _ _ rfl (by simp) rfl

theorem FirstWord.slReg (b d r : RegNum) : FirstWord.Statement (.slReg b d r) :=
  FirstWord.of_high _ _ rfl (by simp) rfl

theorem FirstWord.slLit (b d : RegNum) (k : BitVec 4) : FirstWord.Statement (.slLit b d k) :=
  FirstWord.of_high _ _ rfl (by simp) rfl

theorem FirstWord.lsrReg (b d r : RegNum) : FirstWord.Statement (.lsrReg b d r) :=
  FirstWord.of_high _ _ rfl (by simp) rfl

theorem FirstWord.lsrLit (b d : RegNum) (k : BitVec 4) : FirstWord.Statement (.lsrLit b d k) :=
  FirstWord.of_high _ _ rfl (by simp) rfl

theorem FirstWord.asrReg (b d r : RegNum) : FirstWord.Statement (.asrReg b d r) :=
  FirstWord.of_high _ _ rfl (by simp) rfl

theorem FirstWord.asrLit (b d : RegNum) (k : BitVec 4) : FirstWord.Statement (.asrLit b d k) :=
  FirstWord.of_high _ _ rfl (by simp) rfl

theorem FirstWord.macSq (m : BitVec 2) (a : Acc) (xd yd : BitVec 2) (x y : Prefetch) : FirstWord.Statement (.macSq m a xd yd x y) :=
  FirstWord.of_high _ _ rfl (by simp) rfl

theorem FirstWord.mpySq (m : BitVec 2) (a : Acc) (xd yd : BitVec 2) (x y : Prefetch) : FirstWord.Statement (.mpySq m a xd yd x y) :=
  FirstWord.of_high _ _ rfl (by simp) rfl

theorem FirstWord.edac (m : BitVec 2) (a : Acc) (xd : BitVec 2) (x y : Prefetch) : FirstWord.Statement (.edac m a xd x y) :=
  FirstWord.of_high _ _ rfl (by simp) rfl

theorem FirstWord.ed (m : BitVec 2) (a : Acc) (xd : BitVec 2) (x y : Prefetch) : FirstWord.Statement (.ed m a xd x y) :=
  FirstWord.of_high _ _ rfl (by simp) rfl

theorem FirstWord.lnk (lit : BitVec 14) : FirstWord.Statement (.lnk lit) :=
  FirstWord.of_high _ _ rfl (by simp) rfl

theorem FirstWord.ulnk : FirstWord.Statement .ulnk := by
  unfold FirstWord.Statement; decide

theorem FirstWord.se (d : RegNum) (src : Operand) : FirstWord.Statement (.se d src) :=
  FirstWord.of_high _ _ rfl (by simp) rfl

theorem FirstWord.ze (d : RegNum) (src : Operand) : FirstWord.Statement (.ze d src) :=
  FirstWord.of_high _ _ rfl (by simp) rfl

theorem FirstWord.disi (lit : BitVec 14) : FirstWord.Statement (.disi lit) :=
  FirstWord.of_high _ _ rfl (by simp) rfl

theorem FirstWord.reset : FirstWord.Statement .reset := by
  unfold FirstWord.Statement; decide

theorem FirstWord.pwrsav (k : BitVec 1) : FirstWord.Statement (.pwrsav k) :=
  FirstWord.of_high _ _ rfl (by simp) rfl

theorem FirstWord.popS : FirstWord.Statement .popS := by
  unfold FirstWord.Statement; decide

theorem FirstWord.pushS : FirstWord.Statement .pushS := by
  unfold FirstWord.Statement; decide

end Sys2Proof.Laws
end

