-- ==== Sys2Proof/Laws/Sequence.lean ====
section
/-! SUPPORT. What a step does around the instruction: one lemma for each part of `finish`, and the classes of
instructions as the statements name them. -/

namespace Sys2Proof.Machine

/-! ### Classes -/

theorem excludedRepeatTarget_iff (i : Instr) : excludedRepeatTarget i = true ↔ i.NotRepeatable := by
  cases i <;> first | exact ⟨fun _ => trivial, fun _ => rfl⟩ | exact ⟨fun h => (nomatch h), fun h => False.elim h⟩

theorem excludedLoopEnd_iff (i : Instr) : excludedLoopEnd i = true ↔ i.NotLoopEnd := by
  cases i <;> first | exact ⟨fun _ => trivial, fun _ => rfl⟩ | exact ⟨fun h => (nomatch h), fun h => False.elim h⟩

theorem baseCycles_eq (i : Instr) : baseCycles i = i.cycles := by cases i <;> rfl

theorem isRepeat_iff (i : Instr) : isRepeat i = true ↔ (∃ n, i = .repeatLit n) ∨ ∃ r, i = .repeatReg r := by
  cases i with
  | repeatLit n => exact ⟨fun _ => .inl ⟨_, rfl⟩, fun _ => rfl⟩
  | repeatReg n => exact ⟨fun _ => .inr ⟨_, rfl⟩, fun _ => rfl⟩
  | _ => exact ⟨fun h => (nomatch h), fun h => by rcases h with ⟨_, h⟩ | ⟨_, h⟩ <;> cases h⟩

theorem holds_iff (s : State) (a : PcAddr) (cls : Instr → Bool) :
    s.holds a cls = true ↔ ∃ i, s.fetchAt a = .instr i ∧ cls i = true := by
  unfold State.holds
  split
  · rename_i i h
    exact ⟨fun e => ⟨i, h, e⟩, fun ⟨j, e, hj⟩ => by rw [h] at e; cases e; exact hj⟩
  · rename_i h; exact ⟨fun e => (nomatch e), fun ⟨i, e, _⟩ => absurd e (h i)⟩

/-! ### The loops under way -/

/-- The loops that the end-of-loop rules look at (R465). -/
theorem mem_loops {s : State} {l : PcAddr × PcAddr} :
    l ∈ s.loops ↔ s.da = true ∧
      (l = (s.dostart, s.doend) ∨ s.corcon.dl ≠ 1 ∧ l = (s.dostartShadow, s.doendShadow)) := by
  unfold State.loops State.da
  by_cases h0 : s.corcon.dl = 0#3
  · simp [h0]
  · by_cases h1 : s.corcon.dl = 1#3 <;> simp [h0, h1]

theorem endsLoop_iff {s : State} {a : PcAddr} :
    s.endsLoop a = true ↔ s.da = true ∧ (a = s.doend ∨ s.corcon.dl ≠ 1 ∧ a = s.doendShadow) := by
  simp only [State.endsLoop, List.any_eq_true, mem_loops, beq_iff_eq]
  constructor
  · rintro ⟨l, ⟨h, rfl | ⟨h1, rfl⟩⟩, rfl⟩
    · exact ⟨h, .inl rfl⟩
    · exact ⟨h, .inr ⟨h1, rfl⟩⟩
  · rintro ⟨h, rfl | ⟨h1, rfl⟩⟩
    · exact ⟨_, ⟨h, .inl rfl⟩, rfl⟩
    · exact ⟨_, ⟨h, .inr ⟨h1, rfl⟩⟩, rfl⟩

/-- An end address is the address of one of the words of the last instruction (R478). -/
theorem lastOfLoop_iff {s : State} {i : Instr} :
    s.lastOfLoop i = true ↔ s.da = true ∧ ∃ a, (a = s.pc ∨ i.words = 2 ∧ a = s.pc + 2) ∧
      (a = s.doend ∨ s.corcon.dl ≠ 1 ∧ a = s.doendShadow) := by
  simp only [State.lastOfLoop, Bool.or_eq_true, Bool.and_eq_true, beq_iff_eq, endsLoop_iff]
  constructor
  · rintro (⟨h, e⟩ | ⟨w, h, e⟩)
    · exact ⟨h, _, .inl rfl, e⟩
    · exact ⟨h, _, .inr ⟨w, rfl⟩, e⟩
  · rintro ⟨h, a, rfl | ⟨w, rfl⟩, e⟩
    · exact .inl ⟨h, e⟩
    · exact .inr ⟨w, h, e⟩

/-! ### The next pc -/

/-- The count of a pending early termination is all that `advanceEdt` changes. -/
theorem advanceEdt_eq (t : State) : ∃ e, t.advanceEdt = { t with edtPending := e } := by
  unfold State.advanceEdt
  split
  · exact ⟨_, rfl⟩
  · exact ⟨_, rfl⟩

theorem advance_next {t : State} {words : Nat} (h : t.pc.toNat + 2 * words < 2 ^ 23) :
    t.advance words = .next { t with pc := BitVec.ofNat 23 (t.pc.toNat + 2 * words) } := by
  rw [State.advance, if_pos h]

/-- A step that no hazard rule refuses ends as its choice of the next pc says (R14). -/
theorem finish_next {i : Instr} {s t u : State} (hz : (loopRegsHazard i s t || iplHazard i s t) = false)
    (h : t.advanceEdt.choosePc s.sr.ra i.words = .next u) :
    finish i s t =
      .next { u with
        disicnt := BitVec.ofNat 14 (u.disicnt.toNat - stepCycles i t)
        last := recentAfter i t
        held := heldAfter i t
        cur := Scratch.empty } := by
  rw [finish, hz, h]
  rfl

theorem finish_hazard {i : Instr} {s t : State} (h : (loopRegsHazard i s t || iplHazard i s t) = true) :
    finish i s t = .refused .doHazard := by
  rw [finish, h]
  rfl

/-- An instruction that is no return leaves what it did for the rules about the next one. -/
theorem recentAfter_eq {i : Instr} (h1 : i ≠ .ret) (h2 : i ≠ .retfie) (h3 : ∀ byte lit d, i ≠ .retlw byte lit d)
    (t : State) : recentAfter i t = t.cur.recent := by
  cases i <;> first | rfl | exact absurd rfl h1 | exact absurd rfl h2 | exact absurd rfl (h3 _ _ _)

/-- All that the end of a step leaves for the rules about the next instruction (R592, log 35). -/
theorem marksLeft_of_last {i : Instr} {t u : State} (h : u.last = recentAfter i t) : MarksLeft i t u where
  other h1 h2 h3 := h.trans (recentAfter_eq h1 h2 h3 t)
  ret e := by subst e; exact h
  retlw byte lit d e := by subst e; exact h
  retfie e hn := by
    subst e
    rw [h, recentAfter]
    cases hj : t.cur.jump with
    | none => rfl
    | some a =>
      have hf : t.resumed a = none := by
        refine List.find?_eq_none.2 fun x hx => ?_
        simp only [Suspended.differs, Bool.not_or, bne, Bool.not_not, Bool.and_eq_true, beq_iff_eq, not_and]
        exact hn a hj x hx
      simp [hf]
  resumed e a m hj hm := by
    subst e
    have hf : t.resumed a = some m := by
      refine Eq.trans (congrArg (fun p => t.held.find? p) ?_) hm
      funext x
      simp [Suspended.differs, bne]
    rw [h, recentAfter, hj]
    simp [hf]

/-- Only a RETFIE that goes to an address drops what is held of an interrupted program. -/
theorem heldAfter_eq {i : Instr} {t : State} (h : i ≠ .retfie ∨ t.cur.jump = none) : heldAfter i t = t.held := by
  unfold heldAfter
  split
  · rename_i e
    rcases h with h | h
    · exact absurd rfl h
    · rw [h] at e; cases e
  · rfl

end Sys2Proof.Machine
end

