-- ==== Sys2Proof/Tests/Slice0.lean ====
section
/-! SUPPORT. Tests: ill-formed terms that the well-formedness check refuses; words assembled by hand from the patterns of
spec/opcode_table.json (R170), one for every constructor; the vectors of spec/95_test_vectors.md, each theorem naming
its vector; and for every statement with hypotheses a state and operands that meet them (`witness_<statement>`). -/

namespace Sys2Proof.Tests

open Sys2Proof.Machine

/-! ### Well-formedness: one ill-formed term for each check -/

theorem test_illFormed_targets : (Instr.call 0x000101).wellFormed = false ∧ (Instr.goto 0x7FFFFF).wellFormed = false := by
  decide

theorem test_illFormed_aliases :
    (Instr.mov 0 false ⟨.postInc, 15⟩ ⟨.direct, 3⟩).wellFormed = false ∧
    (Instr.mov 0 false ⟨.direct, 3⟩ ⟨.preDec, 15⟩).wellFormed = false := by decide

theorem test_illFormed_offset_destination :
    (Instr.addReg 1 false ⟨.offset, 2⟩ ⟨.direct, 3⟩).wellFormed = false ∧
    (Instr.tblrdl false ⟨.offset, 2⟩ ⟨.indirect, 3⟩).wellFormed = false ∧
    (Instr.slOne false ⟨.offset, 2⟩ ⟨.direct, 3⟩).wellFormed = false ∧
    (Instr.lsrOne false ⟨.offset, 2⟩ ⟨.direct, 3⟩).wellFormed = false ∧
    (Instr.asrOne false ⟨.offset, 2⟩ ⟨.direct, 3⟩).wellFormed = false ∧
    (Instr.addLit5 1 false ⟨.offset, 2⟩ 7).wellFormed = false ∧
    (Instr.movDStore ⟨.offset, 2⟩ 4).wellFormed = false := by decide

theorem test_illFormed_offset_source :
    (Instr.addReg 1 false ⟨.direct, 2⟩ ⟨.offset, 3⟩).wellFormed = false ∧
    (Instr.tblrdl false ⟨.direct, 2⟩ ⟨.offset, 3⟩).wellFormed = false ∧
    (Instr.slOne false ⟨.direct, 2⟩ ⟨.offset, 3⟩).wellFormed = false ∧
    (Instr.lsrOne false ⟨.direct, 2⟩ ⟨.offset, 3⟩).wellFormed = false ∧
    (Instr.asrOne false ⟨.direct, 2⟩ ⟨.offset, 3⟩).wellFormed = false ∧
    (Instr.bsetInd 1 false ⟨.offset, 3⟩).wellFormed = false ∧
    (Instr.bclrInd 1 false ⟨.offset, 3⟩).wellFormed = false ∧
    (Instr.btscInd 1 ⟨.offset, 3⟩).wellFormed = false ∧
    (Instr.mulUU 1 2 ⟨.offset, 3⟩).wellFormed = false ∧ (Instr.mulUS 1 2 ⟨.offset, 3⟩).wellFormed = false ∧
    (Instr.mulSU 1 2 ⟨.offset, 3⟩).wellFormed = false ∧ (Instr.mulSS 1 2 ⟨.offset, 3⟩).wellFormed = false ∧
    (Instr.se 1 ⟨.offset, 3⟩).wellFormed = false ∧ (Instr.ze 1 ⟨.offset, 3⟩).wellFormed = false ∧
    (Instr.movDLoad 4 ⟨.offset, 2⟩).wellFormed = false := by decide

theorem test_illFormed_odd_fields :
    (Instr.movFromFile 0x0901 2).wellFormed = false ∧ (Instr.movToFile 0x0901 2).wellFormed = false ∧
    (Instr.bsetFile 3 0x0901).wellFormed = false ∧ (Instr.bclrFile 3 0x0901).wellFormed = false ∧
    (Instr.btscFile 3 0x0901).wellFormed = false ∧ (Instr.movDLoad 3 ⟨.direct, 2⟩).wellFormed = false ∧
    (Instr.movDStore ⟨.direct, 2⟩ 3).wellFormed = false ∧ (Instr.lnk 5).wellFormed = false := by decide

/-! ### Words assembled by hand from the patterns of R170 -/

theorem test_decode_flow :
    decodeTableWord 24 0x000000 = some .nop ∧
    decodeTableWord 24 0x00A5C3 = some .nop ∧
    decodeTableWord 48 0x000001022344 = some (.call 0x012344) ∧
    decodeTableWord 48 0x00007F044002 = some (.goto 0x7F4002) ∧
    decodeTableWord 24 0x057129 = some (.retlw true 0x312 9) ∧
    decodeTableWord 24 0x060000 = some .ret ∧
    decodeTableWord 24 0x064000 = some .retfie ∧
    decodeTableWord 24 0x07FFC1 = some (.rcall 0xFFC1) ∧
    decodeTableWord 24 0x378001 = some (.bra 0x8001) := by decide

theorem test_decode_loops :
    decodeTableWord 48 0x008003082001 = some (.doLit 0x2001 0x8003) ∧
    decodeTableWord 48 0x00000508800B = some (.doReg 11 0x0005) ∧
    decodeTableWord 24 0x093FFE = some (.repeatLit 0x3FFE) ∧
    decodeTableWord 24 0x098006 = some (.repeatReg 6) := by decide

theorem test_decode_moves :
    decodeTableWord 24 0x2A5C3D = some (.movLit16 0xA5C3 13) ∧
    decodeTableWord 24 0x7BF15D = some (.mov 7 true ⟨.offset, 2⟩ ⟨.preInc, 13⟩) ∧
    decodeTableWord 24 0x845263 = some (.movFromFile 0x8A4C 3) ∧
    decodeTableWord 24 0x88481C = some (.movToFile 0x0902 12) ∧
    decodeTableWord 24 0xB3C9C5 = some (.movLit8 0x9C 5) ∧
    decodeTableWord 24 0xB7A906 = some (.movWregToFile false 0x0906) ∧
    decodeTableWord 24 0xBE0531 = some (.movDLoad 10 ⟨.postInc, 1⟩) ∧
    decodeTableWord 24 0xBEA686 = some (.movDStore ⟨.preDec, 13⟩ 6) ∧
    decodeTableWord 24 0xBFD802 = some (.movFile true false 0x1802) := by decide

theorem test_decode_stack :
    decodeTableWord 24 0x781F89 = some (.push 9) ∧
    decodeTableWord 24 0x78034F = some (.pop 6) ∧
    decodeTableWord 24 0xFA2004 = some (.lnk 0x2004) ∧
    decodeTableWord 24 0xFA8000 = some .ulnk ∧
    decodeTableWord 24 0xFE8000 = some .popS ∧
    decodeTableWord 24 0xFEA000 = some .pushS := by decide

theorem test_decode_additions :
    decodeTableWord 24 0x44DACC = some (.addReg 9 true ⟨.postInc, 5⟩ ⟨.preDec, 12⟩) ∧
    decodeTableWord 24 0x418D75 = some (.addLit5 3 false ⟨.indirect, 10⟩ 0x15) ∧
    decodeTableWord 24 0xB06A57 = some (.addLit10 true 0x2A5 7) ∧
    decodeTableWord 24 0xB45901 = some (.addFile true false 0x1901) := by decide

theorem test_decode_bits :
    decodeTableWord 24 0xA09427 = some (.bsetInd 9 true ⟨.postDec, 7⟩) ∧
    decodeTableWord 24 0xA16018 = some (.bclrInd 6 false ⟨.indirect, 8⟩) ∧
    decodeTableWord 24 0xA7C034 = some (.btscInd 12 ⟨.postInc, 4⟩) ∧
    decodeTableWord 24 0xA86905 = some (.bsetFile 11 0x0904) ∧
    decodeTableWord 24 0xA9D002 = some (.bclrFile 6 0x1002) ∧
    decodeTableWord 24 0xAF2042 = some (.btscFile 1 0x0042) := by decide

theorem test_decode_multiplies :
    decodeTableWord 24 0xB82C13 = some (.mulUU 5 8 ⟨.indirect, 3⟩) ∧
    decodeTableWord 24 0xB8D207 = some (.mulUS 10 4 ⟨.direct, 7⟩) ∧
    decodeTableWord 24 0xB90B39 = some (.mulSU 1 6 ⟨.postInc, 9⟩) ∧
    decodeTableWord 24 0xB9E14B = some (.mulSS 12 2 ⟨.preDec, 11⟩) ∧
    decodeTableWord 24 0xBC4A03 = some (.mulFile true 0x0A03) := by decide

theorem test_decode_dsp_multiplies :
    decodeTableWord 24 0xC5A7A5 = some (.mac .w5w7 .accB 2 1 (.pointer true .minus4) (.pointer true .plus2) .w13Inc) ∧
    decodeTableWord 24 0xC13317 = some (.mpy .w4w6 .accA 3 0 .indexed (.pointer false .minus6)) ∧
    decodeTableWord 24 0xC6D8D0 = some (.msc .w6w7 .accB 1 2 (.pointer false .plus6) .none .w13) ∧
    decodeTableWord 24 0xC04D23 = some (.mpyN .w4w5 .accA 0 3 .none (.pointer true .zero)) ∧
    decodeTableWord 24 0xF29DF4 = some (.macSq 2 .accB 1 3 (.pointer false .minus2) (.pointer true .minus6)) ∧
    decodeTableWord 24 0xF322BD = some (.mpySq 3 .accA 2 0 (.pointer true .plus4) (.pointer true .minus2)) ∧
    decodeTableWord 24 0xF1E04A = some (.edac 1 .accB 2 (.pointer false .plus2) (.pointer false .plus4)) ∧
    decodeTableWord 24 0xF271AF = some (.ed 2 .accA 3 (.pointer false .minus4) (.pointer true .plus6)) := by decide

theorem test_decode_accumulators :
    decodeTableWord 24 0xC88009 = some (.sftacReg .accB 9) ∧
    decodeTableWord 24 0xC8006B = some (.sftacLit .accA 0x2B) ∧
    decodeTableWord 24 0xC9CB63 = some (.addAccSrc .accB 9 6 ⟨.offset, 3⟩) ∧
    decodeTableWord 24 0xCA2E2A = some (.lac .accA 5 12 ⟨.postDec, 10⟩) ∧
    decodeTableWord 24 0xCB8000 = some (.addAcc .accB) ∧
    decodeTableWord 24 0xCC9C9C = some (.sac .accB 3 9 ⟨.indirect, 12⟩) ∧
    decodeTableWord 24 0xCD70B5 = some (.sacR .accA 14 1 ⟨.postInc, 5⟩) := by decide

theorem test_decode_one_bit_shifts :
    decodeTableWord 24 0xD04B59 = some (.slOne true ⟨.indirect, 6⟩ ⟨.preInc, 9⟩) ∧
    decodeTableWord 24 0xD11584 = some (.lsrOne false ⟨.postDec, 11⟩ ⟨.direct, 4⟩) ∧
    decodeTableWord 24 0xD1C19C = some (.asrOne true ⟨.direct, 3⟩ ⟨.indirect, 12⟩) ∧
    decodeTableWord 24 0xD43A02 = some (.slFile false true 0x1A02) ∧
    decodeTableWord 24 0xD54903 = some (.lsrFile true false 0x0903) ∧
    decodeTableWord 24 0xD5F001 = some (.asrFile true true 0x1001) := by decide

theorem test_decode_many_bit_shifts :
    decodeTableWord 24 0xDD4B03 = some (.slReg 9 6 3) ∧
    decodeTableWord 24 0xDD0E4B = some (.slLit 1 12 11) ∧
    decodeTableWord 24 0xDE3189 = some (.lsrReg 6 3 9) ∧
    decodeTableWord 24 0xDE52C7 = some (.lsrLit 10 5 7) ∧
    decodeTableWord 24 0xDE9C86 = some (.asrReg 3 9 6) ∧
    decodeTableWord 24 0xDEE0C2 = some (.asrLit 12 1 2) := by decide

theorem test_decode_divides :
    decodeTableWord 24 0xD80482 = some (.divSW 9 2) ∧
    decodeTableWord 24 0xD82A43 = some (.divSD 5 4 3) ∧
    decodeTableWord 24 0xD8830D = some (.divUW 6 13) ∧
    decodeTableWord 24 0xD8DD47 = some (.divUD 11 10 7) ∧
    decodeTableWord 24 0xD92009 = some (.divF 4 9) := by decide

theorem test_decode_extensions :
    decodeTableWord 24 0xFB04C6 = some (.se 9 ⟨.preDec, 6⟩) ∧
    decodeTableWord 24 0xFB818C = some (.ze 3 ⟨.direct, 12⟩) := by decide

theorem test_decode_system :
    decodeTableWord 24 0xBA44B6 = some (.tblrdl true ⟨.direct, 9⟩ ⟨.postInc, 6⟩) ∧
    decodeTableWord 24 0xFC2A55 = some (.disi 0x2A55) ∧
    decodeTableWord 24 0xFE0000 = some .reset ∧
    decodeTableWord 24 0xFE4001 = some (.pwrsav 1) := by decide

/-- The words of the programs P1 to P5, as spec/95_test_vectors.md prints them. -/
theorem test_decode_printed_words :
    decodeTableWord 24 0x25A5A0 = some (.movLit16 0x5A5A 0) ∧
    decodeTableWord 24 0x781F80 = some (.push 0) ∧
    decodeTableWord 24 0x7801CF = some (.pop 3) ∧
    decodeTableWord 24 0x090003 = some (.repeatLit 3) ∧
    decodeTableWord 24 0x400001 = some (.addReg 0 false ⟨.direct, 0⟩ ⟨.direct, 1⟩) ∧
    decodeTableWord 24 0x408081 = some (.addReg 1 false ⟨.direct, 1⟩ ⟨.direct, 1⟩) ∧
    decodeTableWord 48 0x000001080002 = some (.doLit 2 1) ∧
    decodeTableWord 24 0x07003F = some (.rcall 0x3F) ∧
    decodeTableWord 24 0xC00113 = some (.mpy .w4w5 .accA 0 0 .none .none) ∧
    decodeTableWord 24 0xCC0000 = some (.sac .accA 0 0 ⟨.direct, 0⟩) := by decide

/-- Words that no row has: an unassigned opcode, a reserved mode code, a reserved operand pair. -/
theorem test_decode_rejects :
    decodeTableWord 24 0x100000 = none ∧ decodeTableWord 24 0x403001 = none ∧ decodeTableWord 24 0xC30113 = none ∧
    decodeTableWord 48 0x010000020000 = none := by decide

/-! ### States -/

/-- The state after reset with these registers written as words, so that they are initialised, and these words of
RAM. -/
def start (regs : List (RegNum × Word)) (ram : List (Word × Word)) : State :=
  { ram.foldl (fun s c => s.store false c.1 c.2) (regs.foldl (fun s c => s.putWord c.1 c.2) State.reset) with
    cur := Scratch.empty }

/-- The outcome is a next state with this property. -/
def after (o : Host.Outcome State Fault Refusal) (p : State → Bool) : Bool :=
  match o with
  | .next t => p t
  | .fault _ => false
  | .refused _ => false

/-- The outcome is this fault. -/
def faultsWith (o : Host.Outcome State Fault Refusal) (f : Fault) : Bool :=
  match o with
  | .next _ => false
  | .fault g => f == g
  | .refused _ => false

/-- The outcome is this refusal. -/
def refusesWith (o : Host.Outcome State Fault Refusal) (r : Refusal) : Bool :=
  match o with
  | .next _ => false
  | .fault _ => false
  | .refused q => r == q

/-- C, Z, OV, N, DC, the order of spec/95_test_vectors.md. -/
def flagsOf (t : State) : List Bool := [t.sr.c, t.sr.z, t.sr.ov, t.sr.n, t.sr.dc]

/-- The word of RAM at an address. -/
def ramOf (t : State) (a : Word) : Word := t.load false a

/-- The state with other CORCON modes. -/
def withModes (s : State) (us sata accsat satdw rnd ifm : Bool) : State :=
  { s with corcon := { s.corcon with us := us, sata := sata, accsat := accsat, satdw := satdw, rnd := rnd, ifm := ifm } }

/-! ### Moves, stack, byte conversion -/

/-- T3. -/
theorem test_mov_postInc :
    after (exec (.mov 0 false ⟨.postInc, 1⟩ ⟨.direct, 0⟩) (start [(0, 0xABCD), (1, 0x0900)] []))
      (fun t => ramOf t 0x0900 == 0xABCD && t.readW 1 == 0x0902) = true := by decide

/-- T6: the byte lane and the byte step. -/
theorem test_mov_byte :
    after (exec (.mov 0 true ⟨.postInc, 1⟩ ⟨.direct, 0⟩) (start [(0, 0x12AB), (1, 0x0901)] [(0x0900, 0x5566)]))
      (fun t => ramOf t 0x0900 == 0xAB66 && t.readW 1 == 0x0902) = true := by decide

/-- T4. -/
theorem test_mov_preDec :
    after (exec (.mov 0 false ⟨.direct, 2⟩ ⟨.preDec, 1⟩) (start [(1, 0x0902)] [(0x0900, 0x1357)]))
      (fun t => t.readW 1 == 0x0900 && t.readW 2 == 0x1357) = true := by decide

/-- V4: the data write dominates. -/
theorem test_mov_write_dominates :
    after (exec (.mov 0 false ⟨.postInc, 2⟩ ⟨.direct, 1⟩) (start [(1, 0x1234), (2, 0x0004)] []))
      (fun t => t.readW 2 == 0x1234) = true := by decide

/-- T9: a byte write does not initialise the pointer, so its use resets the device. -/
theorem test_uninitialised_pointer :
    after (exec (.mov 0 false ⟨.indirect, 3⟩ ⟨.direct, 0⟩) ((start [(0, 0xABCD)] []).putByte 3 0x10))
      (fun t => t.readW 0 == 0 && t.cur.jump == some 0 && !t.initialised 0) = true := by decide

/-- T11. -/
theorem test_movFromFile :
    after (exec (.movFromFile 0x0004 10) (start [(2, 0xBEEF)] [])) (fun t => t.readW 10 == 0xBEEF) = true := by decide

/-- T12. -/
theorem test_movToFile :
    after (exec (.movToFile 0x0900 7) (start [(7, 0x0F0F)] [])) (fun t => ramOf t 0x0900 == 0x0F0F) = true := by decide

/-- T208: a software write of SR. -/
theorem test_movToFile_sr :
    after (exec (.movToFile 0x0042 0) (start [(0, 0xFFFF)] [])) (fun t => t.srWord == 0x01EF) = true := by decide

/-- T10. -/
theorem test_movWregToFile :
    after (exec (.movWregToFile false 0x0900) (start [(0, 0x1234)] [])) (fun t => ramOf t 0x0900 == 0x1234) = true := by
  decide

/-- T7: a fault of the run, or the trap on a device whose parameter says so. -/
theorem test_mov_misaligned :
    faultsWith (exec (.mov 0 false ⟨.indirect, 1⟩ ⟨.direct, 0⟩) (start [(1, 0x0901)] [])) .addressError = true ∧
    after (exec (.mov 0 false ⟨.indirect, 1⟩ ⟨.direct, 0⟩) { start [(1, 0x0901)] [] with
        dev := { Device.default with misalignedTraps := true } }) (fun t => t.pendingTraps.address) = true := by decide

/-- T13. -/
theorem test_movDLoad :
    after (exec (.movDLoad 2 ⟨.postInc, 0⟩) (start [(0, 0x1234)] [(0x1234, 0xAAAA), (0x1236, 0xBBBB)]))
      (fun t => t.readW 2 == 0xAAAA && t.readW 3 == 0xBBBB && t.readW 0 == 0x1238) = true := by decide

/-- T14. -/
theorem test_movDStore :
    after (exec (.movDStore ⟨.indirect, 1⟩ 4) (start [(1, 0x0900), (4, 0x0123), (5, 0x4567)] []))
      (fun t => ramOf t 0x0900 == 0x0123 && ramOf t 0x0902 == 0x4567 && t.readW 1 == 0x0900) = true := by decide

/-- T15. -/
theorem test_movLit8 :
    after (exec (.movLit8 0x55 0) (start [(0, 0x1200)] [])) (fun t => t.readW 0 == 0x1255) = true := by decide

/-- T16. -/
theorem test_movLit16_w15 :
    after (exec (.movLit16 0xFFFF 15) (start [] [])) (fun t => t.readW 15 == 0xFFFE) = true := by decide

/-- T18. -/
theorem test_push_w15 :
    after (exec (.push 15) (start [(15, 0x0810)] [])) (fun t => ramOf t 0x0810 == 0x0810 && t.readW 15 == 0x0812) = true := by
  decide

/-- T202: after 0x0000 has been written to SPLIM as a word. -/
theorem test_push_overflow :
    after (exec (.push 0) { start [(0, 0x5A5A)] [] with splimArmed := true })
      (fun t => t.pendingTraps.stack && t.readW 15 == 0x0800 && ramOf t 0x0800 == 0) = true := by decide

/-- T19. -/
theorem test_pop :
    after (exec (.pop 3) (start [(15, 0x0804)] [(0x0802, 0x3636)]))
      (fun t => t.readW 3 == 0x3636 && t.readW 15 == 0x0802) = true := by decide

/-- T20. -/
theorem test_pop_underflow :
    after (exec (.pop 0) (start [(0, 0x1111)] []))
      (fun t => t.pendingTraps.stack && t.readW 15 == 0x07FE && t.readW 0 == 0x1111) = true := by decide

/-- T21, the first instruction. -/
theorem test_pushS :
    after (exec .pushS { start [(0, 1), (1, 2), (2, 3), (3, 4)] [] with
        sr := { State.reset.sr with c := true, ov := true, dc := true } })
      (fun t => t.wShadow == #v[1, 2, 3, 4] && t.srShadow == ⟨true, false, true, false, true⟩) = true := by decide

/-- T21, the last instruction. -/
theorem test_popS :
    after (exec .popS { start [(3, 9)] [] with wShadow := #v[1, 2, 3, 4], srShadow := ⟨true, false, true, false, true⟩ })
      (fun t => t.readW 0 == 1 && t.readW 1 == 2 && t.readW 2 == 3 && t.readW 3 == 4 &&
        flagsOf t == [true, false, true, false, true]) = true := by decide

/-- T22. -/
theorem test_lnk :
    after (exec (.lnk 4) (start [(14, 0x0900), (15, 0x0810)] []))
      (fun t => ramOf t 0x0810 == 0x0900 && t.readW 14 == 0x0812 && t.readW 15 == 0x0816) = true := by decide

/-- T23. -/
theorem test_ulnk :
    after (exec .ulnk (start [(14, 0x0812), (15, 0x0816)] [(0x0810, 0x0900)]))
      (fun t => t.readW 14 == 0x0900 && t.readW 15 == 0x0810) = true := by decide

/-- T24. -/
theorem test_se :
    after (exec (.se 2 ⟨.direct, 1⟩) (start [(1, 0x1280)] []))
      (fun t => t.readW 2 == 0xFF80 && flagsOf t == [false, false, false, true, false]) = true := by decide

/-- T27. -/
theorem test_ze :
    after (exec (.ze 2 ⟨.direct, 1⟩) (start [(1, 0xFF00), (2, 7)] []))
      (fun t => t.readW 2 == 0 && flagsOf t == [true, true, false, false, false]) = true := by decide

/-! ### ADD, bits, shifts, multiplies -/

/-- T33. -/
theorem test_add_overflow :
    after (exec (.addReg 0 false ⟨.direct, 2⟩ ⟨.direct, 1⟩) (start [(0, 0x8000), (1, 0x8000), (2, 5)] []))
      (fun t => t.readW 2 == 0 && flagsOf t == [true, true, true, false, false]) = true := by decide

/-- T36. -/
theorem test_add_byte :
    after (exec (.addReg 0 true ⟨.direct, 2⟩ ⟨.direct, 1⟩) (start [(0, 0x120F), (1, 0x3401), (2, 0x5678)] []))
      (fun t => t.readW 2 == 0x5610 && flagsOf t == [false, false, false, false, true]) = true := by decide

/-- T39. -/
theorem test_addFile :
    after (exec (.addFile false true 0x0900) (start [(0, 3)] [(0x0900, 0xFFFD)]))
      (fun t => ramOf t 0x0900 == 0 && t.readW 0 == 3 && flagsOf t == [true, true, false, false, true]) = true := by decide

/-- T40. -/
theorem test_addFile_wreg :
    after (exec (.addFile false false 0x0900) (start [(0, 3)] [(0x0900, 0xFFFD)]))
      (fun t => ramOf t 0x0900 == 0xFFFD && t.readW 0 == 0 && flagsOf t == [true, true, false, false, true]) = true := by
  decide

/-- T50. -/
theorem test_bset :
    after (exec (.bsetFile 15 0x0900) (start [] [])) (fun t => ramOf t 0x0900 == 0x8000) = true := by decide

/-- T51. -/
theorem test_bclr :
    after (exec (.bclrFile 3 0x0900) (start [] [(0x0900, 0x00FF)])) (fun t => ramOf t 0x0900 == 0x00F7) = true := by decide

/-- T52: no skip. DISICNT shows the cycle count. -/
theorem test_btsc_no_skip :
    after (step ({ start [] [] with pc := 0x000100, disicnt := 100, sr := { State.reset.sr with z := true } }.withFetchWord
        24 0xAF2042)) (fun t => t.pc == 0x000102 && t.disicnt == 99) = true := by decide

/-- T54: a two-word instruction is skipped. -/
theorem test_btsc_skip :
    after (step (({ start [] [] with pc := 0x000100, disicnt := 100 }.withFetchWord 24 0xAF2042).setProgWord 0x000102
        0x040000)) (fun t => t.pc == 0x000106 && t.disicnt == 97) = true := by decide

/-- T58. -/
theorem test_asrOne :
    after (exec (.asrOne false ⟨.direct, 2⟩ ⟨.direct, 1⟩) (start [(1, 0x8001)] []))
      (fun t => t.readW 2 == 0xC000 && flagsOf t == [true, false, false, true, false]) = true := by decide

/-- T59. -/
theorem test_lsrOne :
    after (exec (.lsrOne false ⟨.direct, 2⟩ ⟨.direct, 1⟩) (start [(1, 0x0001), (2, 3)] []))
      (fun t => t.readW 2 == 0 && flagsOf t == [true, true, false, false, false]) = true := by decide

/-- T60. -/
theorem test_slOne :
    after (exec (.slOne false ⟨.direct, 2⟩ ⟨.direct, 1⟩) (start [(1, 0x8000), (2, 3)] []))
      (fun t => t.readW 2 == 0 && flagsOf t == [true, true, false, false, false]) = true := by decide

/-- T58 in byte mode on file registers (R265). -/
theorem test_asrFile :
    after (exec (.asrFile true true 0x0901) (start [] [(0x0900, 0x8134)]))
      (fun t => ramOf t 0x0900 == 0xC034 && flagsOf t == [true, false, false, true, false]) = true := by decide

/-- T59 on a file register (R266). -/
theorem test_lsrFile :
    after (exec (.lsrFile false true 0x0900) (start [] [(0x0900, 0x0001)]))
      (fun t => ramOf t 0x0900 == 0 && flagsOf t == [true, true, false, false, false]) = true := by decide

/-- R267 with WREG as the destination. -/
theorem test_slFile :
    after (exec (.slFile false false 0x0900) (start [] [(0x0900, 0x4001)]))
      (fun t => t.readW 0 == 0x8002 && ramOf t 0x0900 == 0x4001 && flagsOf t == [false, false, false, true, false]) =
        true := by decide

/-- T55. -/
theorem test_asrLit :
    after (exec (.asrLit 1 2 2) (start [(1, 0x8004)] [])) (fun t => t.readW 2 == 0xE001 && t.sr.n && !t.sr.z) = true := by
  decide

/-- T56. -/
theorem test_lsrLit :
    after (exec (.lsrLit 1 2 2) (start [(1, 0x8004)] [])) (fun t => t.readW 2 == 0x2001 && !t.sr.n && !t.sr.z) = true := by
  decide

/-- T57. -/
theorem test_slLit :
    after (exec (.slLit 1 2 2) (start [(1, 0x8004)] [])) (fun t => t.readW 2 == 0x0010 && !t.sr.n && !t.sr.z) = true := by
  decide

/-- T61. -/
theorem test_asrReg :
    after (exec (.asrReg 1 2 3) (start [(1, 0x8000), (3, 0x0010)] [])) (fun t => t.readW 2 == 0xFFFF && t.sr.n) = true := by
  decide

/-- T62. -/
theorem test_lsrReg :
    after (exec (.lsrReg 1 2 3) (start [(1, 0xFFFF), (2, 1), (3, 0x0010)] [])) (fun t => t.readW 2 == 0 && t.sr.z) = true := by
  decide

/-- R267: only the low five bits of the register count. -/
theorem test_slReg :
    after (exec (.slReg 1 2 3) (start [(1, 0x8004), (3, 0xFFE2)] [])) (fun t => t.readW 2 == 0x0010) = true := by decide

/-- T64. -/
theorem test_mulUU :
    after (exec (.mulUU 0 2 ⟨.direct, 1⟩) (start [(0, 3), (1, 0xFFFF)] []))
      (fun t => t.readW 3 == 0x0002 && t.readW 2 == 0xFFFD) = true := by decide

/-- T66. -/
theorem test_mulSS :
    after (exec (.mulSS 0 2 ⟨.direct, 1⟩) (start [(0, 3), (1, 0xFFFF)] []))
      (fun t => t.readW 3 == 0xFFFF && t.readW 2 == 0xFFFD) = true := by decide

/-- T70, the first half. -/
theorem test_mulSU :
    after (exec (.mulSU 0 2 ⟨.direct, 1⟩) (start [(0, 0x8000), (1, 2)] []))
      (fun t => t.readW 3 == 0xFFFF && t.readW 2 == 0) = true := by decide

/-- T70, the second half. -/
theorem test_mulUS :
    after (exec (.mulUS 0 2 ⟨.direct, 1⟩) (start [(0, 0x8000), (1, 2)] []))
      (fun t => t.readW 3 == 0x0001 && t.readW 2 == 0) = true := by decide

/-- R270, the file register forms: W3:W2 in word mode, W2 alone in byte mode. -/
theorem test_mulFile :
    after (exec (.mulFile false 0x0900) (start [(0, 0xFFFF)] [(0x0900, 0xFFFF)]))
      (fun t => t.readW 3 == 0xFFFE && t.readW 2 == 0x0001) = true ∧
    after (exec (.mulFile true 0x0901) (start [(0, 0x77FF), (3, 5)] [(0x0900, 0xFF00)]))
      (fun t => t.readW 3 == 5 && t.readW 2 == 0xFE01) = true := by decide

/-! ### The DSP engine -/

/-- T113: the product of the old registers, two prefetches, both pointers moved. -/
theorem test_mac_prefetch :
    after (exec (.mac .w4w5 .accA 0 1 (.pointer false .plus2) (.pointer false .plus2) .none)
        (start [(4, 0x4000), (5, 0x4000), (8, 0x0900), (10, 0x4800)] [(0x0900, 0x1000), (0x4800, 0x2000)]))
      (fun t => t.acca == 0x0020000000 && t.readW 4 == 0x1000 && t.readW 5 == 0x2000 && t.readW 8 == 0x0902 &&
        t.readW 10 == 0x4802) = true := by decide

/-- R141, D21: a prefetch from ACCAH reads the accumulator as it was. -/
theorem test_mac_prefetch_accumulator :
    after (exec (.mac .w4w5 .accA 0 0 (.pointer false .zero) .none .none)
        { start [(4, 0x4000), (5, 0x4000), (8, 0x0024)] [] with acca := 0x0000050000 })
      (fun t => t.acca == 0x0020050000 && t.readW 4 == 0x0005) = true := by decide

/-- T112. -/
theorem test_mac_writeBack :
    after (exec (.mac .w4w5 .accA 0 0 .none .none .w13Inc)
        { start [(4, 0x4000), (5, 0x4000), (13, 0x0900)] [] with accb := 0x0000018000 })
      (fun t => t.acca == 0x0020000000 && ramOf t 0x0900 == 0x0002 && t.readW 13 == 0x0902) = true := by decide

/-- T81. -/
theorem test_macSq :
    after (exec (.macSq 2 .accA 0 0 .none .none) (start [(6, 0xC000)] [])) (fun t => t.acca == 0x0020000000) = true := by
  decide

/-- T82. -/
theorem test_msc :
    after (exec (.msc .w4w5 .accA 0 0 .none .none .none) (start [(4, 0x4000), (5, 0x4000)] []))
      (fun t => t.acca == 0xFFE0000000 && !t.sr.oa) = true := by decide

/-- T94: saturation to 31 bits. -/
theorem test_msc_saturates :
    after (exec (.msc .w4w5 .accA 0 0 .none .none .none)
        { withModes (start [(4, 0x4000), (5, 0x4000)] []) false true false true false false with acca := 0xFF80000000 })
      (fun t => t.acca == 0xFF80000000 && t.sr.sa && !t.sr.oa) = true := by decide

/-- T188: overflow with the trap enabled. -/
theorem test_mpy_trap :
    after (exec (.mpy .w4w5 .accA 0 0 .none .none)
        { start [(4, 0x8000), (5, 0x8000)] [] with intcon1 := { State.reset.intcon1 with ovate := true } })
      (fun t => t.acca == 0x0080000000 && t.sr.oa && !t.sr.sa && t.intcon1.ovaerr && t.pendingTraps.arithmetic) = true := by
  decide

/-- T88: unsigned integer mode. -/
theorem test_mpy_unsigned :
    after (exec (.mpy .w4w5 .accA 0 0 .none .none)
        (withModes (start [(4, 0xFFFF), (5, 0xFFFF)] []) true false false true false true))
      (fun t => t.acca == 0x00FFFE0001 && t.sr.oa) = true := by decide

/-- T83 in the square form (R344). -/
theorem test_mpySq :
    after (exec (.mpySq 0 .accB 0 0 .none .none) (start [(4, 0x4000)] []))
      (fun t => t.accb == 0x0020000000 && t.acca == 0) = true := by decide

/-- T90. -/
theorem test_mpyN :
    after (exec (.mpyN .w4w5 .accA 0 0 .none .none) (start [(4, 0x8000), (5, 0x8000)] []))
      (fun t => t.acca == 0xFF80000000 && !t.sr.oa) = true := by decide

/-- T114. -/
theorem test_ed :
    after (exec (.ed 0 .accA 0 (.pointer false .zero) (.pointer false .zero))
        { withModes (start [(4, 3), (8, 0x0900), (10, 0x4800)] [(0x0900, 0x0010), (0x4800, 0x000C)]) false false false true
            false true with acca := 0x7777777777 })
      (fun t => t.acca == 9 && t.readW 4 == 4) = true := by decide

/-- T115. -/
theorem test_edac :
    after (exec (.edac 0 .accA 0 (.pointer false .zero) (.pointer false .zero))
        { withModes (start [(4, 4), (8, 0x0900), (10, 0x4800)] [(0x0900, 0x0010), (0x4800, 0x000C)]) false false false true
            false true with acca := 9 })
      (fun t => t.acca == 0x19 && t.readW 4 == 4) = true := by decide

/-- T95. -/
theorem test_addAcc :
    after (exec (.addAcc .accA) { start [] [] with acca := 0x007FFFFFFF, accb := 1 })
      (fun t => t.acca == 0x0080000000 && t.accb == 1 && t.sr.oa && !t.sr.ob) = true := by decide

/-- T97. -/
theorem test_lac_left :
    after (exec (.lac .accA 0 0xF ⟨.indirect, 1⟩) (start [(1, 0x0900)] [(0x0900, 0x8000)]))
      (fun t => t.acca == 0xFF00000000 && t.sr.oa) = true := by decide

/-- T98. -/
theorem test_lac_right :
    after (exec (.lac .accA 0 4 ⟨.indirect, 1⟩) (start [(1, 0x0900)] [(0x0900, 0x8000)]))
      (fun t => t.acca == 0xFFF8000000 && !t.sr.oa) = true := by decide

/-- T99. -/
theorem test_addAccSrc :
    after (exec (.addAccSrc .accA 0 0 ⟨.direct, 1⟩) { start [(1, 0x2000)] [] with acca := 0x0040000000 })
      (fun t => t.acca == 0x0060000000) = true := by decide

/-- T102 with SATDW = 1. -/
theorem test_sac_saturates :
    after (exec (.sac .accA 0 0 ⟨.direct, 0⟩) { start [] [] with acca := 0xFF7FFF0000 })
      (fun t => t.readW 0 == 0x8000 && t.acca == 0xFF7FFF0000) = true := by decide

/-- T103. -/
theorem test_sac_shift :
    after (exec (.sac .accA 0 4 ⟨.direct, 0⟩) { start [] [] with acca := 0x0123456789 }) (fun t => t.readW 0 == 0x1234) =
      true := by decide

/-- V9, two rows: convergent rounding, to the even neighbour. -/
theorem test_sacR_convergent :
    after (exec (.sacR .accA 0 0 ⟨.direct, 0⟩) { start [] [] with acca := 0x0000018000 }) (fun t => t.readW 0 == 2) = true ∧
    after (exec (.sacR .accA 0 0 ⟨.direct, 0⟩) { start [] [] with acca := 0xFFFFFE8000 }) (fun t => t.readW 0 == 0xFFFE) =
      true := by decide

/-- V9, the row 0x0000028000 with conventional rounding. -/
theorem test_sacR_conventional :
    after (exec (.sacR .accA 0 0 ⟨.direct, 0⟩)
      { withModes (start [] []) false false false true true false with acca := 0x0000028000 }) (fun t => t.readW 0 == 3) =
      true := by decide

/-- T108. -/
theorem test_sftacLit :
    after (exec (.sftacLit .accA 16) { start [] [] with acca := 0xFF80000000 })
      (fun t => t.acca == 0xFFFFFF8000 && !t.sr.oa) = true := by decide

/-- T109, the count in a register. -/
theorem test_sftacReg :
    after (exec (.sftacReg .accA 1) { start [(1, 0xFF91)] [] with acca := 0x0012345678 })
      (fun t => t.acca == 0x0012345678 && t.intcon1.sftacerr && t.pendingTraps.arithmetic) = true := by decide

/-! ### Divides -/

/-- T120, T121, T122, T123, T124, T125, T127, T128. -/
theorem test_quotients :
    signedQuotient (-7) 2 = some (0xFFFD, 0xFFFF) ∧ signedQuotient 7 (-2) = some (0xFFFD, 0x0001) ∧
    signedQuotient 0x10000 3 = some (0x5555, 0x0001) ∧ unsignedQuotient 0xFFFF 0x10 = some (0x0FFF, 0x000F) ∧
    unsignedQuotient 0x10000 2 = some (0x8000, 0x0000) ∧ fractionalQuotient 0x4000 0x6000 = some (0x5555, 0x2000) ∧
    signedQuotient (-32768) (-1) = none ∧ unsignedQuotient 0x20000 2 = none := by decide

/-- The first execution of each divide keeps the quotient of its operands (T120, T122, T123, T124, T125). -/
theorem test_divide_first :
    after (exec (.divSW 2 3) (start [(2, 0xFFF9), (3, 2)] []))
      (fun t => (t.div.map fun p => (p.k, p.q, p.r)) == some (1, 0xFFFD, 0xFFFF)) = true ∧
    after (exec (.divSD 5 4 3) (start [(4, 0), (5, 1), (3, 3)] []))
      (fun t => (t.div.map fun p => (p.k, p.q, p.r)) == some (1, 0x5555, 0x0001)) = true ∧
    after (exec (.divUW 2 3) (start [(2, 0xFFFF), (3, 0x10)] []))
      (fun t => (t.div.map fun p => (p.k, p.q, p.r)) == some (1, 0x0FFF, 0x000F)) = true ∧
    after (exec (.divUD 5 4 3) (start [(4, 0), (5, 1), (3, 2)] []))
      (fun t => (t.div.map fun p => (p.k, p.q, p.r)) == some (1, 0x8000, 0x0000)) = true ∧
    after (exec (.divF 4 5) (start [(4, 0x4000), (5, 0x6000)] []))
      (fun t => (t.div.map fun p => (p.k, p.q, p.r)) == some (1, 0x5555, 0x2000)) = true := by decide

/-- The 18th execution writes the quotient and the remainder (T120). -/
theorem test_divide_last :
    after (exec (.divSW 2 3) { start [(0, 0x1111), (1, 0x2222), (2, 0xFFF9), (3, 2)] [] with
        div := some ⟨17, 0xFFFD, 0xFFFF, 0x1111, 0x2222⟩ })
      (fun t => t.readW 0 == 0xFFFD && t.readW 1 == 0xFFFF && t.div.isNone) = true := by decide

/-- T126. -/
theorem test_divide_by_zero :
    after (exec (.divUW 2 3) (start [(2, 0x1234), (3, 0)] []))
      (fun t => t.intcon1.div0err && t.pendingTraps.arithmetic) = true := by decide

/-! ### Program flow -/

/-- T140. -/
theorem test_call :
    after (exec (.call 0x012344) { start [] [] with pc := 0x000200 })
      (fun t => ramOf t 0x0800 == 0x0204 && ramOf t 0x0802 == 0 && t.readW 15 == 0x0804 && t.cur.jump == some 0x012344) =
      true := by decide

/-- T141. -/
theorem test_call_high :
    after (exec (.call 0x000400) { start [] [] with pc := 0x012300 })
      (fun t => ramOf t 0x0800 == 0x2304 && ramOf t 0x0802 == 1 && t.cur.jump == some 0x000400) = true := by decide

/-- P4, the RCALL. -/
theorem test_rcall :
    after (exec (.rcall 0x3F) { start [] [] with pc := 0x000100 })
      (fun t => ramOf t 0x0800 == 0x0102 && t.readW 15 == 0x0804 && t.cur.jump == some 0x000180) = true := by decide

/-- T143. -/
theorem test_goto :
    after (step ({ start [] [] with pc := 0x000100 }.withFetchWord 48 0x000000044000)) (fun t => t.pc == 0x004000) = true := by
  decide

/-- T144, and a branch backwards. -/
theorem test_bra :
    after (step ({ start [] [] with pc := 0x000100 }.withFetchWord 24 0x37000F)) (fun t => t.pc == 0x000120) = true ∧
    after (step ({ start [] [] with pc := 0x000100 }.withFetchWord 24 0x37FFFF)) (fun t => t.pc == 0x000100) = true := by
  decide

/-- T146. -/
theorem test_return :
    after (exec .ret (start [(15, 0x0804)] [(0x0800, 0x2304), (0x0802, 0xFF81)]))
      (fun t => t.cur.jump == some 0x012304 && t.readW 15 == 0x0800 && t.srl == 0) = true := by decide

/-- T149. -/
theorem test_return_underflow :
    after (exec .ret (start [(15, 0x0802)] [])) (fun t => t.pendingTraps.stack && t.cur.jump.isNone) = true := by decide

/-- T147. -/
theorem test_retlw :
    after (exec (.retlw false 0x12 0) (start [(15, 0x0804)] [(0x0800, 0x0102)]))
      (fun t => t.readW 0 == 0x0012 && t.cur.jump == some 0x000102 && t.readW 15 == 0x0800) = true := by decide

/-- T148. -/
theorem test_retfie :
    after (exec .retfie { start [(15, 0x0804)] [(0x0800, 0x0102), (0x0802, 0x8100)] with
        corcon := { State.reset.corcon with ipl3 := true } })
      (fun t => t.srl == 0x81 && !t.corcon.ipl3 && t.cur.jump == some 0x000102 && t.readW 15 == 0x0800) = true := by decide

/-- R470: RETFIE works as the last instruction of a DO loop, also where it changes IPL in a loop of two instructions. -/
theorem test_retfie_loop_end :
    after (step ({ start [(15, 0x0804)] [(0x0800, 0x0102), (0x0802, 0x8100)] with
        pc := 0x000202, dostart := 0x000200, doend := 0x000202, dcount := 1
        corcon := { State.reset.corcon with dl := 1 } }.withFetchWord 24 0x064000))
      (fun t => t.srl == 0x81 && t.pc == 0x000102 && t.dcount == 1) = true := by decide

/-- T150. -/
theorem test_nop : after (step (start [] [])) (fun t => t.pc == 2 && t.w == (start [] []).w) = true := by decide

/-- T151. -/
theorem test_disi : after (step ((start [] []).withFetchWord 24 0xFC0005)) (fun t => t.disicnt == 4) = true := by decide

/-- T152. -/
theorem test_tblrdl :
    after (exec (.tblrdl false ⟨.direct, 1⟩ ⟨.postInc, 0⟩) ({ start [(0, 0x0100)] [] with tblpag := 1 }.setProgWord 0x010100
      0xABCDEF)) (fun t => t.readW 1 == 0xCDEF && t.readW 0 == 0x0102) = true := by decide

/-- T153. -/
theorem test_tblrdl_byte :
    after (exec (.tblrdl true ⟨.direct, 1⟩ ⟨.indirect, 0⟩) ({ start [(0, 0x0101), (1, 0x5500)] [] with tblpag := 1
      }.setProgWord 0x010100 0xABCDEF)) (fun t => t.readW 1 == 0x55CD) = true := by decide

/-- T155. -/
theorem test_reset :
    after (step ({ start [(3, 7)] [] with pc := 0x000400, sr := { State.reset.sr with dc := true } }.withFetchWord 24
      0xFE0000)) (fun t => t.pc == 0 && t.readW 3 == 0 && t.readW 15 == 0x0800 && !t.sr.dc && t.corcon.word == 0x0020) =
      true := by decide

/-- The forms that the opcode table has without a rule, and PWRSAV (R154, R431). -/
theorem test_refusals :
    refusesWith (exec (.addLit5 0 false ⟨.direct, 1⟩ 3) (start [] [])) .noRule = true ∧
    refusesWith (exec (.addLit10 false 3 1) (start [] [])) .noRule = true ∧
    refusesWith (exec (.bsetInd 1 false ⟨.direct, 1⟩) (start [] [])) .noRule = true ∧
    refusesWith (exec (.bclrInd 1 false ⟨.direct, 1⟩) (start [] [])) .noRule = true ∧
    refusesWith (exec (.btscInd 1 ⟨.direct, 1⟩) (start [] [])) .noRule = true ∧
    refusesWith (exec (.movFile false false 0x0900) (start [] [])) .noRule = true ∧
    refusesWith (exec (.pwrsav 0) (start [] [])) .powerSaving = true := by decide

/-! ### Loops and steps -/

/-- V21: REPEAT with a register. -/
theorem test_repeatReg :
    after (exec (.repeatReg 5) (start [(5, 0x4002)] [])) (fun t => t.rcount == 2 && t.sr.ra) = true := by decide

/-- T161. -/
theorem test_repeatLit_zero :
    after (exec (.repeatLit 0) (start [] [])) (fun t => t.rcount == 0 && !t.sr.ra) = true := by decide

/-- P2, steps 4 and 6: the hold while RCOUNT counts down. -/
theorem test_repeat_hold :
    after (step ({ start [(0, 1), (1, 2)] [] with pc := 0x000206, rcount := 3, sr := { State.reset.sr with ra := true }
      }.withFetchWord 24 0x400001)) (fun t => t.readW 0 == 3 && t.rcount == 2 && t.sr.ra && t.pc == 0x000206) = true ∧
    after (step ({ start [(0, 5), (1, 2)] [] with pc := 0x000206, rcount := 1, sr := { State.reset.sr with ra := true }
      }.withFetchWord 24 0x400001)) (fun t => t.readW 0 == 7 && t.rcount == 0 && !t.sr.ra && t.pc == 0x000206) = true := by
  decide

/-- R458: a REPEAT before RETURN, and a RETURN that is repeated. -/
theorem test_repeat_target :
    refusesWith (step ((State.reset.setProgWord 0 0x090000).setProgWord 2 0x060000)) .repeatTarget = true ∧
    refusesWith (step ({ State.reset with rcount := 1, sr := { State.reset.sr with ra := true } }.withFetchWord 24
      0x060000)) .repeatTarget = true := by decide

/-- R472, R576, R480: in a loop from 0x0100 to 0x0106, `MOV W0, DCOUNT` as the penultimate instruction and `MOV W0, SR`
before it, with a changed IPL, are refused; so is the end of a loop of one instruction, and so is `MOV W0, SR` as the last
instruction of an inner loop where it stands before the penultimate one of the outer loop. -/
theorem test_loop_hazards :
    refusesWith (step ({ start [(0, 0x0020)] [] with
        pc := 0x000104, dostart := 0x000100, doend := 0x000106, dcount := 1
        corcon := { State.reset.corcon with dl := 1 } }.withFetchWord 24 0x8801C0)) .doHazard = true ∧
    refusesWith (step ({ start [(0, 0x0020)] [] with
        pc := 0x000102, dostart := 0x000100, doend := 0x000106, dcount := 1
        corcon := { State.reset.corcon with dl := 1 } }.withFetchWord 24 0x880210)) .doHazard = true ∧
    refusesWith (step { start [] [] with
        pc := 0x000106, dostart := 0x000106, doend := 0x000106
        corcon := { State.reset.corcon with dl := 1 } }) .doLoopLength = true ∧
    refusesWith (step ({ start [(0, 0x0020)] [] with
        pc := 0x000104, dostart := 0x0000FE, doend := 0x000104, dcount := 1
        dostartShadow := 0x0000F0, doendShadow := 0x000108
        corcon := { State.reset.corcon with dl := 2 } }.withFetchWord 24 0x880210)) .doHazard = true := by decide

/-- T166. -/
theorem test_doLit :
    after (step ({ start [] [] with pc := 0x000100 }.withFetchWord 48 0x000001080002))
      (fun t => t.dostart == 0x000104 && t.doend == 0x000106 && t.dcount == 2 && t.corcon.dl == 1 && t.da &&
        t.pc == 0x000104) = true := by decide

/-- T167. -/
theorem test_doReg :
    after (exec (.doReg 3 1) { start [(3, 0xC001)] [] with pc := 0x000100 }) (fun t => t.dcount == 1) = true := by decide

/-- P3, the last instruction of the body in iterations 2 and 3. -/
theorem test_do_body :
    after (step ({ start [(1, 2)] [] with
        pc := 0x000106, dostart := 0x000104, doend := 0x000106, dcount := 1
        corcon := { State.reset.corcon with dl := 1 } }.withFetchWord 24 0x408081))
      (fun t => t.readW 1 == 4 && t.dcount == 0 && t.pc == 0x000104 && t.da) = true ∧
    after (step ({ start [(1, 4)] [] with
        pc := 0x000106, dostart := 0x000104, doend := 0x000106, dcount := 0
        corcon := { State.reset.corcon with dl := 1 } }.withFetchWord 24 0x408081))
      (fun t => t.readW 1 == 8 && t.pc == 0x000108 && !t.da) = true := by decide

/-- V18, rows 2 and 1: the read-after-write stall takes a cycle, a register-direct source takes none. -/
theorem test_stall :
    after (step ({ start [(2, 0x0900)] [] with disicnt := 100, last := { Recent.empty with wrote := regBit 2 }
      }.withFetchWord 24 0x780192)) (fun t => t.disicnt == 98) = true ∧
    after (step ({ start [(2, 0x0900)] [] with disicnt := 100, last := { Recent.empty with wrote := regBit 2 }
      }.withFetchWord 24 0x780182)) (fun t => t.disicnt == 99) = true := by decide

/-- V19: a source read through the PSV window. -/
theorem test_psv :
    after (step (({ start [(0, 1), (1, 0x8000), (2, 0x0900)] [] with
        disicnt := 100, psvpag := 0xAA
        corcon := { State.reset.corcon with psv := true } }.setProgWord 0x550000 0x001111).withFetchWord 24 0x401911))
      (fun t => ramOf t 0x0900 == 0x1112 && t.readW 2 == 0x0902 && t.disicnt == 97) = true := by decide

/-- P6, steps 6 and 7: the entry of an interrupt inside a REPEAT loop. -/
theorem test_interrupt_entry :
    after (step { start [(0, 5)] [] with
        pc := 0x000206, rcount := 1, sr := { State.reset.sr with ra := true }, irq := some ⟨9, 4⟩,
        dev := { Device.default with vectors := [(.irq 9, 0x001000)] } })
      (fun t => ramOf t 0x0800 == 0x0206 && ramOf t 0x0802 == 0x1000 && t.readW 15 == 0x0804 && !t.sr.ra &&
        t.sr.ipl == 4 && t.pc == 0x001000 && t.irq.isNone) = true := by decide

/-- T187: a stack violation while an interrupt is entered. -/
theorem test_interrupt_entry_stack :
    after (step { start [(15, 0x2000)] [] with splim := 0x1FFE, splimArmed := true, irq := some ⟨9, 4⟩ })
      (fun t => t.pendingTraps.stack && t.readW 15 == 0x2004 && t.accepted == some (.trap .stack)) = true := by decide

/-- T191. -/
theorem test_illegal_address :
    after (step { start [] [] with pc := 0x7FFFFC })
      (fun t => t.pendingTraps.illegal && t.pc == 0x7FFFFE) = true := by decide

/-! ### Witnesses: a state and operands that meet the hypotheses of each statement -/

/-- An outcome with a property is a next state. -/
theorem next_of_after {o : Host.Outcome State Fault Refusal} (h : after o (fun _ => true) = true) : ∃ t, o = .next t := by
  cases o with
  | next t => exact ⟨t, rfl⟩
  | fault _ => cases h
  | refused _ => cases h

/-- A witness state: W1 and W2 point into RAM, W3 at an odd address, W4 nowhere, W8 into X and W10 into Y data space. -/
def ready : State :=
  start [(0, 0x0900), (1, 0x0900), (2, 0x0A00), (3, 0x0901), (4, 0x0300), (8, 0x0902), (10, 0x4800), (13, 0x0A10),
    (14, 0x0900), (15, 0x0804)] [(0x0800, 0x0102), (0x0802, 0x8101), (0x0900, 0x1234), (0x0902, 0x8001)]

/-- The witness state with the stack check armed. -/
def armed : State := { ready with splim := 0x0820, splimArmed := true }

theorem witness_DecodeEncode : (Instr.call 0x012344).wellFormed = true := by decide

theorem witness_DecodeWellFormed : decode [0x44, 0x23, 0x02, 0x01, 0, 0, 7] = .ok (.call 0x012344, [7]) := by decide

theorem witness_WithFetchWordFetched :
    State.reset.prog.wf = true ∧ decodeTableWord 48 0x000001022344 = some (.call 0x012344) ∧
    { State.reset with pc := 0x7FFFFC }.pc.toNat + 2 ≤ State.reset.dev.progTop.toNat := by decide

/-- A next state, a fault and a refusal. -/
theorem witness_StepRunsDecoded :
    State.reset.resetReq = false ∧ State.reset.accepted = none ∧
    decode (State.reset.bytesAt State.reset.pc) = .ok (.nop, [0, 0, 0]) ∧
    State.reset.pc.toNat + 2 * (Instr.nop.words - 1) ≤ State.reset.dev.progTop.toNat ∧
    contextRefusal .nop State.reset = none ∧ exec .nop State.reset.notePrefetch = .next State.reset ∧
    State.reset.pc.toNat + 4 ≤ State.reset.dev.progTop.toNat := by
  refine ⟨by decide, by decide, by decide, by decide, by decide, rfl, by decide⟩

theorem witness_StepRunsDecoded_fault :
    (State.reset.withFetchWord 24 0x803000).accepted = none ∧
    decode ((State.reset.withFetchWord 24 0x803000).bytesAt 0) = .ok (.movFromFile 0x0600 0, [0, 0, 0]) ∧
    contextRefusal (.movFromFile 0x0600 0) (State.reset.withFetchWord 24 0x803000) = none ∧
    faultsWith (exec (.movFromFile 0x0600 0) (State.reset.withFetchWord 24 0x803000).notePrefetch) .unimplementedData =
      true := by decide

theorem witness_StepRunsDecoded_refusal :
    (State.reset.withFetchWord 24 0xFE4000).accepted = none ∧
    decode ((State.reset.withFetchWord 24 0xFE4000).bytesAt 0) = .ok (.pwrsav 0, [0, 0, 0]) ∧
    contextRefusal (.pwrsav 0) (State.reset.withFetchWord 24 0xFE4000) = none ∧
    refusesWith (exec (.pwrsav 0) (State.reset.withFetchWord 24 0xFE4000).notePrefetch) .powerSaving = true := by decide

theorem witness_ResetOtherState : ready.dev.resetSrLow6Table = false := by decide

theorem witness_InvKept : ready.Inv ∧ ∃ t, step ready = .next t := by
  refine ⟨⟨by decide, by decide, by decide, by decide, by decide, by decide, by decide, by decide, by decide, by decide,
    ?_, ?_, by decide⟩, next_of_after (by decide)⟩
  · intro p h
    cases h
  · intro h
    exact absurd rfl h

theorem witness_DeviceReset : { ready with resetReq := true }.resetReq = true := by decide

/-- A program of RESET, and one of MOV [W5], W6 with W5 uninitialised. -/
theorem witness_DeviceReset_step :
    (State.reset.withFetchWord 24 0xFE0000).accepted = none ∧
    (State.reset.withFetchWord 24 0xFE0000).fetch = .instr .reset ∧
    contextRefusal .reset (State.reset.withFetchWord 24 0xFE0000) = none ∧
    (State.reset.withFetchWord 24 0x780315).fetch = .instr (.mov 0 false ⟨.direct, 6⟩ ⟨.indirect, 5⟩) ∧
    contextRefusal (.mov 0 false ⟨.direct, 6⟩ ⟨.indirect, 5⟩) (State.reset.withFetchWord 24 0x780315) = none ∧
    State.reset.initialised 5 = false := by decide

/-- An uninitialised pointer, an odd address, an unimplemented address. -/
theorem witness_OperandFaults :
    conflicts ⟨.indirect, 5⟩ ⟨.direct, 6⟩ = false ∧ (Operand.mk .indirect 5).isDirect = false ∧
    ((Operand.mk .indirect 5).usesStack 0 && ready.last.splim) = false ∧ ready.initialised 5 = false ∧
    ready.addressable 0 (stepOf false) ⟨.indirect, 3⟩ = true ∧
    (ready.effective 0 (stepOf false) ⟨.indirect, 3⟩).getLsbD 0 = true ∧
    ready.addressable 0 (stepOf true) ⟨.postInc, 4⟩ = true ∧
    (ready.effective 0 (stepOf false) ⟨.postInc, 4⟩).getLsbD 0 = false ∧
    sfrAt ready.dev (ready.effective 0 (stepOf true) ⟨.postInc, 4⟩) = none ∧
    (ready.corcon.psv && (ready.effective 0 (stepOf true) ⟨.postInc, 4⟩).getLsbD 15) = false ∧
    ready.inRam (ready.effective 0 (stepOf true) ⟨.postInc, 4⟩) 1 = false ∧ ready.dev.misalignedTraps = false ∧
    { ready.dev with misalignedTraps := true }.misalignedTraps = true ∧ ready.dev.externalBus = false ∧
    { ready.dev with externalBus := true }.externalBus = true ∧
    (ready.effective 0 (stepOf true) ⟨.postInc, 4⟩).toNat < 0x0800 := by decide

/-- An address above RAM, which an external bus could hold. -/
theorem witness_OperandFaults_external :
    (start [(4, 0x8000)] []).addressable 0 2 ⟨.indirect, 4⟩ = true ∧
    (start [(4, 0x8000)] []).effective 0 2 ⟨.indirect, 4⟩ = 0x8000 ∧ sfrAt ready.dev 0x8000 = none ∧
    ready.inRam 0x8000 2 = false := by decide

/-- Below RAM an address without a register faults, with an external bus too (R107, R114). -/
theorem test_no_sfr_external_bus :
    faultsWith (exec (.movFromFile 0x07FE 3) { ready with dev := { ready.dev with externalBus := true } })
      .unimplementedData = true := by decide

/-- The same of a destination operand, and an address in the PSV window. -/
theorem witness_OperandFaults_destination :
    conflicts ⟨.direct, 1⟩ ⟨.indirect, 5⟩ = false ∧ ready.sourceReady 0 false ⟨.direct, 1⟩ = true ∧
    (ready.afterSource 0 false ⟨.direct, 1⟩).initialised 5 = false ∧
    ready.addressable 0 (stepOf false) ⟨.preDec, 3⟩ = true ∧
    (ready.effective 0 (stepOf false) ⟨.preDec, 3⟩).getLsbD 0 = true ∧
    ready.inRam (ready.effective 0 (stepOf true) ⟨.postInc, 4⟩) 1 = false ∧
    { start [(1, 0x8000)] [] with corcon := { State.reset.corcon with psv := true } }.addressable 0 2 ⟨.indirect, 1⟩ =
      true ∧
    sfrAt ready.dev 0x8000 = none ∧ ((start [(1, 0x8000)] []).effective 0 2 ⟨.indirect, 1⟩).getLsbD 15 = true := by decide

/-- The last byte of RAM, the first word of RAM, W15 as the pointer, a conflict. -/
theorem witness_MovOperands :
    conflicts ⟨.postInc, 1⟩ ⟨.preDec, 2⟩ = false ∧ ready.sourceReady 0 false ⟨.postInc, 1⟩ = true ∧
    (ready.afterSource 0 false ⟨.postInc, 1⟩).destReady 0 false ⟨.preDec, 2⟩ = true ∧
    (start [(1, 0x7FFF), (2, 0x0802)] []).sourceReady 0 true ⟨.indirect, 1⟩ = true ∧
    ((start [(1, 0x7FFF), (2, 0x0802)] []).afterSource 0 true ⟨.indirect, 1⟩).destReady 0 true ⟨.preDec, 2⟩ = true ∧
    (armed.afterSource 0 false ⟨.offset, 1⟩).destReady 0 false ⟨.postInc, 15⟩ = true ∧
    conflicts ⟨.postInc, 1⟩ ⟨.direct, 1⟩ = true := by decide

theorem witness_OperandFrame :
    conflicts ⟨.postInc, 1⟩ ⟨.preDec, 2⟩ = false ∧ ready.sourceReady 0 false ⟨.postInc, 1⟩ = true ∧
    (ready.afterSource 0 false ⟨.postInc, 1⟩).destReady 0 false ⟨.preDec, 2⟩ = true ∧
    (∀ w, Instr.slOne false ⟨.preDec, 2⟩ ⟨.postInc, 1⟩ ≠ .addReg w false ⟨.preDec, 2⟩ ⟨.postInc, 1⟩) ∧
    ∃ t, exec (.addReg 2 false ⟨.preDec, 2⟩ ⟨.postInc, 1⟩) ready = .next t := by
  refine ⟨by decide, by decide, by decide, by decide, next_of_after (by decide)⟩

/-- ADD writes DC and OV (R255), which OperandFrame leaves to it alone. -/
theorem test_add_writes_dc_ov :
    after (exec (.addReg 2 false ⟨.direct, 4⟩ ⟨.direct, 3⟩) (start [(2, 0x7FFF), (3, 0x0001)] []))
      (fun t => t.sr.dc && t.sr.ov) = true := by decide

/-- The ends of RAM and a CPU register that is read. -/
theorem witness_MovFiles :
    ready.readable false 0x0042 = true ∧ ready.readable false 0x0800 = true ∧ ready.readable false 0x7FFE = true ∧
    ready.writable false 0x0800 = true ∧ ready.writable false 0x7FFE = true ∧
    ready.writable true (fileAddress 0x1FFF) = true ∧ ready.readable true (fileAddress 0x0045) = true ∧
    ready.writable true 0x0801 = true ∧ ready.data.wf = true := by decide

/-- An odd pair, a register pair with W15 in it, memory pairs up to the end of RAM. -/
theorem witness_MovDouble :
    (3 : RegNum).getLsbD 0 = true ∧ (14 : RegNum).getLsbD 0 = false ∧ (Operand.mk .direct 14).isDirect = true ∧
    (Operand.mk .direct 3).reg.getLsbD 0 = true ∧
    (start [(1, 0x7FFC)] []).addressable 0 4 ⟨.indirect, 1⟩ = true ∧
    ((Operand.mk .indirect 1).usesStack 0 && (start [(1, 0x7FFC)] []).stackBad
      ((start [(1, 0x7FFC)] []).effective 0 4 ⟨.indirect, 1⟩ + 2)
      (decide (2 ^ 16 ≤ ((start [(1, 0x7FFC)] []).effective 0 4 ⟨.indirect, 1⟩).toNat + 2))) = false ∧
    conflictsReg ⟨.indirect, 1⟩ 14 = false ∧ conflictsReg ⟨.indirect, 1⟩ 15 = false ∧
    ((start [(1, 0x7FFC)] []).beforeSourceRead 0 4 ⟨.indirect, 1⟩).readable false 0x7FFC = true ∧
    ((start [(1, 0x7FFC)] []).beforeSourceRead 0 4 ⟨.indirect, 1⟩).readable false 0x7FFE = true ∧
    (start [(1, 0x7FFC)] []).writable false 0x7FFC = true ∧ (start [(1, 0x7FFC)] []).writable false 0x7FFE = true := by
  decide

/-- A word write, a byte write, the refused writes, the refused read, a pointer that names its own register. -/
theorem witness_RegisterWrites :
    sfrAt ready.dev 0x0020 = some .splim ∧ Sfr.splim.stored (ready.readW 3) = some 0x0900 ∧
    sfrAt ready.dev 0x0006 = some (.w 3) ∧ (Sfr.w 3).stored (ready.readW 1) ≠ none ∧
    sfrAt ready.dev (fileAddress 0x0006) = some (.w 3) ∧ sfrAt ready.dev 0x001E = some (.w 15) ∧
    (Sfr.w 15).stored (ready.readW 3) = some 0x0900 ∧
    sfrAt ready.dev (fileAddress 0x0035) = some .psvpag ∧ ready.sfrView .psvpag = some 0 ∧
    (0x0035 : BitVec 13).getLsbD 0 = true ∧
    Sfr.psvpag.stored ((ready.readW 0).extractLsb' 0 8 ++ (0 : Word).extractLsb' 0 8) = some 0 ∧
    sfrAt ready.dev 0x002E = some .pcl ∧ sfrAt ready.dev 0x0030 = some .pch ∧ sfrAt ready.dev 0x0046 = some .modcon ∧
    ((start [(0, 0x8000)] []).readW 0).getLsbD 15 = true ∧ sfrAt ready.dev 0x0050 = some .xbrev ∧
    sfrAt ready.dev 0x003E = some .doendl ∧ { ready with last := { Recent.empty with doend := true } }.last.doend = true ∧
    (start [(2, 4)] []).initialised 2 = true ∧ sfrAt (start [(2, 4)] []).dev ((start [(2, 4)] []).readW 2) = some (.w 2) ∧
    ((start [(2, 4)] []).readW 2).getLsbD 0 = false := by decide

/-- A store through [W5++] to SPLIM, of a word, and through [--W5] to the high byte of PSVPAG. -/
theorem witness_RegisterWrites_pointer :
    (Operand.mk .postInc 5).isDirect = false ∧ (start [(5, 0x0020)] []).addressable 0 2 ⟨.postInc, 5⟩ = true ∧
    (start [(5, 0x0020)] []).effective 0 2 ⟨.postInc, 5⟩ = 0x0020 ∧ (0x0020 : Word).getLsbD 0 = false ∧
    sfrAt ready.dev 0x0020 = some .splim ∧ ((start [(5, 0x0020)] []).modified 2 ⟨.postInc, 5⟩).sfrView .splim = some 0 ∧
    Sfr.splim.stored 0x0900 = some 0x0900 ∧ (3 : RegNum) ≠ 5 ∧
    (start [(5, 0x0036)] []).addressable 0 1 ⟨.preDec, 5⟩ = true ∧
    (start [(5, 0x0036)] []).effective 0 1 ⟨.preDec, 5⟩ = 0x0035 ∧ sfrAt ready.dev 0x0035 = some .psvpag ∧
    ((start [(5, 0x0036)] []).modified 1 ⟨.preDec, 5⟩).sfrView .psvpag = some 0 ∧
    Sfr.psvpag.stored 0x0900 = some 0 := by decide

/-- Operands that modify one register twice, or modify the direct destination (U5). -/
theorem witness_conflicts :
    conflicts ⟨.postInc, 1⟩ ⟨.preDec, 1⟩ = true ∧ conflicts ⟨.postInc, 1⟩ ⟨.direct, 1⟩ = true ∧
    conflictsReg ⟨.postInc, 7⟩ 7 = true ∧ conflictsReg ⟨.postInc, 7⟩ (6 + 1) = true ∧ (6 : RegNum).getLsbD 0 = false := by
  decide

theorem witness_StatusWrite : (0x0042 : BitVec 16).getLsbD 0 = false ∧ sfrAt ready.dev 0x0042 = some .sr := by decide

/-- A write that keeps DL and IPL3, and one that would change DL. -/
theorem witness_CoreControlWrite :
    (0x0044 : BitVec 16).getLsbD 0 = false ∧ sfrAt (start [(0, 0x0020)] []).dev 0x0044 = some .corcon ∧
    ((start [(0, 0x0020)] []).readW 0).extractLsb' 8 3 = (start [(0, 0x0020)] []).corcon.dl ∧
    ((start [(0, 0x0020)] []).readW 0).getLsbD 3 = (start [(0, 0x0020)] []).corcon.ipl3 ∧
    ((start [(0, 0x0120)] []).readW 0).extractLsb' 8 3 ≠ (start [(0, 0x0120)] []).corcon.dl := by decide

/-- ADD to TBLPAG as a word, BSET of bit 7 in it, a shift of the high byte of SR, ADD to CORCON that would and would not
change DL, a write that would enable modulo addressing, PCL. -/
theorem witness_FileOpsOnRegisters :
    sfrAt ready.dev (fileAddress 0x0032) = some .tblpag ∧ (0x0032 : BitVec 13).getLsbD 0 = false ∧
    ready.readable false (fileAddress 0x0032) = true ∧ ready.sfrView .tblpag = some 0 ∧
    Sfr.tblpag.stored (addResult false 0 (ready.readW 0)) = some 0 ∧
    (ready.withSr (addSr ready.sr false 0 (ready.readW 0))).sfrView .tblpag = some 0 ∧
    Sfr.tblpag.stored (0 ||| 1#16 <<< 7) = some 0x80 ∧ sfrAt ready.dev (fileAddress 0x0043) = some .sr ∧
    ready.readable true (fileAddress 0x0043) = true ∧ ready.sfrView .sr = some 0 ∧
    (ready.withSr (shiftSr ready.sr .lsr true 0)).sfrView .sr = some 2 ∧
    sfrAt ready.dev (fileAddress 0x0044) = some .corcon ∧ ready.sfrView .corcon = some 0x0020 ∧
    (addResult false 0x0020 0x0040).extractLsb' 8 3 = ready.corcon.dl ∧
    (addResult false 0x0020 (ready.readW 0)).extractLsb' 8 3 ≠ ready.corcon.dl ∧
    sfrAt ready.dev (fileAddress 0x0046) = some .modcon ∧ ready.readable true (fileAddress 0x0047) = true ∧
    sfrAt ready.dev (fileAddress 0x0050) = some .xbrev ∧ (0 ||| 1#16 <<< 15 : Word).getLsbD 15 = true ∧
    sfrAt ready.dev (fileAddress 0x002E) = some .pcl := by decide

/-- The first and the last address of the window. -/
theorem witness_PsvWindow :
    { start [(1, 0x8000), (2, 0xFFFF)] [] with corcon := { State.reset.corcon with psv := true } }.corcon.psv = true ∧
    ((start [(1, 0x8000)] []).readW 1).getLsbD 15 = true ∧ (start [(1, 0x8000)] []).initialised 1 = true ∧
    ((start [(1, 0x8000)] []).readW 1).getLsbD 0 = false ∧
    ((start [(2, 0xFFFF)] []).psvpag ++ ((start [(2, 0xFFFF)] []).readW 2).extractLsb' 1 14 ++ 0#1 : BitVec 23).toNat ≤
      (start [(2, 0xFFFF)] []).dev.progTop.toNat ∧ (0x8000 : BitVec 16).getLsbD 15 = true := by decide

/-- W15 at SPLIM with the check armed, and at the lowest address. -/
theorem witness_PushPop :
    ready.pushReady = true ∧ ready.data.wf = true ∧ { armed with splim := 0x0804 }.pushReady = true ∧
    ready.popReady = true ∧ (start [(15, 0x0802)] []).popReady = true := by decide

theorem witness_LinkUnlink :
    ready.pushReady = true ∧ (ready.putWord 15 (ready.readW 14)).popReady = true := by decide

/-- Beyond SPLIM, below 0x0800, wrapping, right after a write of SPLIM, and a device that performs the access. -/
theorem witness_StackErrors :
    armed.dev.faultingAccessPerformed = false ∧ { armed with splim := 0x0802 }.splimArmed = true ∧
    { armed with splim := 0x0802 }.splim.toNat < (armed.readW 15).toNat ∧ armed.pc.toNat + 4 < 2 ^ 23 ∧
    0 ≤ (armed.pc.toNat : Int) + (2 + 2 * (0xFFFF : BitVec 16).toInt) ∧
    ((start [(15, 0x07FE)] []).readW 15).toNat < 0x0800 ∧ armed.last.splim = false ∧
    (evenWord ((start [] []).readW 15 - 2)).toNat < 0x0800 ∧
    { armed with splim := 0x0800 }.splim.toNat < (evenWord (armed.readW 15 - 2)).toNat ∧
    { armed with last := { Recent.empty with splim := true } }.last.splim = true ∧
    (Operand.mk .preInc 15).isDirect = false ∧ (Operand.mk .preInc 15).usesStack 0 = true ∧
    conflicts ⟨.preInc, 15⟩ ⟨.direct, 3⟩ = false ∧ armed.initialised 15 = true ∧
    2 ^ 16 ≤ ((start [(15, 0xFFFE)] []).readW 15).toNat + (stepOf false).toNat ∧
    2 ^ 16 ≤ ((start [(15, 0xFFFE)] []).readW 15).toNat + ((start [(2, 2)] []).readW 2).toNat := by decide

theorem witness_StackErrors_performed :
    { Device.default with faultingAccessPerformed := true }.faultingAccessPerformed = true ∧
    { armed with splim := 0x0802 }.writable false (armed.readW 15) = true ∧
    { armed with splim := 0x0800 }.beforePopRead.readable false ({ armed with splim := 0x0800 }.beforePopRead.readW 15) =
      true := by decide

theorem witness_ByteExtensions :
    conflictsReg ⟨.postInc, 3⟩ 5 = false ∧ ready.sourceReady 0 true ⟨.postInc, 3⟩ = true ∧
    (ready.sourceValue 0 true ⟨.postInc, 3⟩).extractLsb' 0 8 = 0x12 := by decide

theorem witness_AddRegister :
    conflicts ⟨.preDec, 2⟩ ⟨.postInc, 1⟩ = false ∧ ready.sourceReady 0 true ⟨.preDec, 2⟩ = true ∧
    (ready.afterSource 0 true ⟨.preDec, 2⟩).destReady 0 true ⟨.postInc, 1⟩ = true := by decide

theorem witness_AddFile :
    ready.readable false (fileAddress 0x0900) = true ∧ ready.fileWritable false true 0x0900 = true ∧
    ready.readable true (fileAddress 0x0042) = true ∧ ready.fileWritable true false 0x0042 = true := by decide

theorem witness_AddFlagsExact : (8 : Nat) = 8 ∨ (8 : Nat) = 16 := by decide

/-- A bit that is 1 and one that is 0; a skipped instruction of one word. -/
theorem witness_BitInstructions :
    ready.writable false (fileAddress 0x0900) = true ∧ ready.readable false (fileAddress 0x0900) = true ∧
    (ready.readValue false (fileAddress 0x0900)).getLsbD 2 = true ∧
    (ready.readValue false (fileAddress 0x0900)).getLsbD 0 = false ∧ evenBits ready.pc = true ∧
    firstWordLength (ready.progWord (ready.pc + 2)) = 1 ∧ ready.pc.toNat + 2 + 2 * 1 < 2 ^ 23 ∧
    firstWordLength ((ready.setProgWord 2 0x040000).progWord (ready.pc + 2)) = 2 := by decide

theorem witness_ShiftOneBit :
    conflicts ⟨.direct, 3⟩ ⟨.indirect, 1⟩ = false ∧ ready.sourceReady 0 true ⟨.direct, 3⟩ = true ∧
    (ready.afterSource 0 true ⟨.direct, 3⟩).destReady 0 true ⟨.indirect, 1⟩ = true ∧
    ready.readable false (fileAddress 0x0902) = true ∧ ready.fileWritable false true 0x0902 = true := by decide

theorem witness_ShiftManyBits :
    (15 : Nat) = (15 : BitVec 4).toNat ∧ (ready.readW 3).toNat % 32 = 1 ∧
    shiftMany .sl (ready.readW 0) 15 = 0 ∧ shiftMany .asr (ready.readW 0) 1 = 0x0480 := by decide

theorem witness_ShiftsExact : (16 : Nat) = 8 ∨ (16 : Nat) = 16 := by decide

/-- Each signedness with its product, the file register forms, an odd pair. -/
theorem witness_Multiplies :
    (5 : RegNum).getLsbD 0 = true ∧ (6 : RegNum).getLsbD 0 = false ∧ conflictsReg ⟨.postInc, 1⟩ 6 = false ∧
    conflictsReg ⟨.postInc, 1⟩ 7 = false ∧ ready.sourceReady 0 false ⟨.postInc, 1⟩ = true ∧
    ready.sourceValue 0 false ⟨.postInc, 1⟩ = 0x1234 ∧
    (11929600 : Int) = (ready.readW 2).toNat * (0x1234 : Word).toNat ∧
    (-152694220 : Int) = ((start [(9, 0x8001)] []).readW 9).toInt * (0x1234 : Word).toNat ∧
    ready.readable false (fileAddress 0x0900) = true ∧ ready.readable true (fileAddress 0x0901) = true := by decide

/-- A word read, a byte read at an odd address, a table address with bit 23 set, a register-direct source. -/
theorem witness_TableRead :
    (Operand.mk .direct 1).isDirect = true ∧ conflicts ⟨.postInc, 3⟩ ⟨.indirect, 1⟩ = false ∧
    ready.addressable 0 (stepOf true) ⟨.postInc, 3⟩ = true ∧ ready.effective 0 (stepOf true) ⟨.postInc, 3⟩ = 0x0901 ∧
    ready.tblpag.getLsbD 7 = false ∧ { ready with tblpag := 0x80 }.tblpag.getLsbD 7 = true ∧
    ready.progImplemented (ready.tblpag.extractLsb' 0 7 ++ (0x0901 : Word).extractLsb' 1 15 ++ 0#1) = true ∧
    ready.progWord (ready.tblpag.extractLsb' 0 7 ++ (0x0901 : Word).extractLsb' 1 15 ++ 0#1) = 0 ∧
    (ready.beforeSourceRead 0 (stepOf true) ⟨.postInc, 3⟩).destReady 0 true ⟨.indirect, 1⟩ = true ∧
    ready.addressable 0 (stepOf false) ⟨.indirect, 1⟩ = true ∧
    (ready.effective 0 (stepOf false) ⟨.indirect, 1⟩).getLsbD 0 = false ∧
    ready.addressable 0 (stepOf false) ⟨.indirect, 3⟩ = true ∧
    (ready.effective 0 (stepOf false) ⟨.indirect, 3⟩).getLsbD 0 = true ∧ ready.dev.misalignedTraps = false ∧
    { ready.dev with misalignedTraps := true }.misalignedTraps = true := by decide

/-- The three modes. -/
theorem witness_AccumulatorModes :
    (withModes ready false true false true false false).corcon.satOf .accA = true ∧
    (withModes ready false true false true false false).corcon.accsat = false ∧
    (withModes ready false true true true false false).corcon.satOf .accA = true ∧
    (withModes ready false true true true false false).corcon.accsat = true ∧ ready.corcon.satOf .accB = false := by decide

/-- Two prefetches with a write-back to memory, an indexed X prefetch, and a conflict. -/
theorem witness_DspMultiplies :
    prefetchConflict 0 1 (.pointer false .plus2) (.pointer false .minus6) = false ∧
    ready.prefetchReady false (.pointer false .plus2) = true ∧ ready.prefetchReady true (.pointer false .minus6) = true ∧
    ready.writeBackReady .w13Inc = true ∧ (start [(9, 0x0900), (12, 2)] []).prefetchReady false .indexed = true ∧
    prefetchConflict 2 2 .indexed (.pointer true .zero) = true := by decide

/-- An uninitialised pointer, an odd address, and an address in the other data space, in X and in Y. -/
theorem witness_DspMultiplies_stops :
    ready.prefetchPointerReady false (.pointer true .zero) = false ∧
    ready.prefetchPointerReady true .indexed = false ∧
    (start [(8, 0x0901)] []).prefetchPointerReady false (.pointer false .plus2) = true ∧
    ((start [(8, 0x0901)] []).prefetchEa false (.pointer false .plus2)).getLsbD 0 = true ∧
    (start [(8, 0x4800)] []).inY ((start [(8, 0x4800)] []).prefetchEa false (.pointer false .plus2)) ≠ false ∧
    (start [(10, 0x47FE)] []).inY ((start [(10, 0x47FE)] []).prefetchEa true (.pointer false .plus2)) ≠ true := by decide

theorem witness_EuclideanDistance :
    (hasPrefetch .none && hasPrefetch .indexed) = false ∧ hasPrefetch (.pointer false .plus2) = true ∧
    ready.prefetchReady false (.pointer false .plus2) = true ∧ ready.prefetchReady true (.pointer false .zero) = true := by
  decide

/-- The largest right shift and the largest left shift of a negative datum. -/
theorem witness_AccumulatorLoads :
    ready.sourceReady 0 false ⟨.indirect, 8⟩ = true ∧ ready.sourceValue 0 false ⟨.indirect, 8⟩ = 0x8001 ∧
    (if 0 ≤ (7 : BitVec 4).toInt then (0x8001 : Word).toInt * 2 ^ 16 / 2 ^ (7 : BitVec 4).toInt.toNat
      else (0x8001 : Word).toInt * 2 ^ 16 * 2 ^ (-(7 : BitVec 4).toInt).toNat) = -16776704 ∧
    (if 0 ≤ (8 : BitVec 4).toInt then (0x8001 : Word).toInt * 2 ^ 16 / 2 ^ (8 : BitVec 4).toInt.toNat
      else (0x8001 : Word).toInt * 2 ^ 16 * 2 ^ (-(8 : BitVec 4).toInt).toNat) = -549739036672 := by decide

theorem witness_AccumulatorStores :
    ready.destReady 0 false ⟨.preDec, 2⟩ = true ∧ ready.destReady 1 false ⟨.direct, 15⟩ = true := by decide

/-- The counts at the ends of each range. -/
theorem witness_StoreValueExact : (0 : Int) ≤ 0 ∧ (16 : Int) ≤ 16 ∧ (-16 : Int) ≤ -16 ∧ (-1 : Int) < 0 := by decide

/-- The counts -16, 16, 17 and -17. -/
theorem witness_AccumulatorShift :
    (0x30 : BitVec 6).toInt = -16 ∧ (0x10 : BitVec 6).toInt = 16 ∧ (0x11 : BitVec 6).toInt = 17 ∧
    (((start [(1, 0x002F)] []).readW 1).extractLsb' 0 6).toInt = -17 := by decide

/-- A first execution, one with a quotient that does not fit, a later one, the 18th, and a dividend that is no pair. -/
theorem witness_DivideSteps :
    divideOf (.divSD 5 3 2) ready = none ∧ divideOf (.divUW 1 2) ready = some (0x0A00, some (0, 0x0900)) ∧
    divideOf (.divUD 5 4 3) (start [(4, 0), (5, 2), (3, 2)] []) = some (2, none) ∧
    ready.divideUnderWay = none ∧
    { ready with div := some ⟨16, 5, 6, 0x0900, 0x0900⟩ }.divideUnderWay = some ⟨16, 5, 6, 0x0900, 0x0900⟩ ∧
    { ready with div := some ⟨17, 5, 6, 0x0900, 0x0900⟩ }.divideUnderWay = some ⟨17, 5, 6, 0x0900, 0x0900⟩ := by decide

/-- The smallest quotient of the signed divides, the largest of the unsigned ones, a proper fraction. -/
theorem witness_DivideValues :
    ((-32768 : Int).tdiv 1 = -32768) ∧ (0xFFFF : Nat) / 1 ≤ 0xFFFF ∧ (0x4000 : Int).natAbs < (-0x8000 : Int).natAbs := by
  decide

theorem witness_DivideByZero :
    divideOf (.divSW 1 5) ready = some (0, signedQuotient 0x0900 0) ∧ ready.divideUnderWay = none := by decide

/-- CALL, and RCALL with the smallest target. -/
theorem witness_Calls :
    ready.pushReady = true ∧ (ready.pushed (pcLow (ready.pc + 4))).pushReady = true ∧
    (ready.pushed (pcLow (ready.pc + 2))).pushReady = true ∧ ready.pc.toNat + 4 < 2 ^ 23 ∧
    (ready.pc.toNat : Int) + (2 + 2 * (0xFFFF : BitVec 16).toInt) = 0 ∧
    2 ^ 23 ≤ (0x7FFFFE : PcAddr).toNat + 4 ∧ 2 ^ 23 ≤ (0x7FFFFE : PcAddr).toNat + 2 ∧
    (ready.pc.toNat : Int) + (2 + 2 * (0xFFFE : BitVec 16).toInt) < 0 := by decide

/-- Targets inside the 23 bits, below 0 and beyond them. -/
theorem witness_Jumps :
    (ready.pc.toNat : Int) + (2 + 2 * (0xFFFF : BitVec 16).toInt) = 0 ∧
    (ready.pc.toNat : Int) + (2 + 2 * (0xFFFE : BitVec 16).toInt) < 0 ∧
    ((0x7FFFFC : PcAddr).toNat : Int) + (2 + 2 * (0 : BitVec 16).toInt) = 2 ^ 23 - 2 ∧
    2 ^ 23 ≤ ((0x7FFFFC : PcAddr).toNat : Int) + (2 + 2 * (1 : BitVec 16).toInt) := by decide

theorem witness_Returns :
    (3 : RegNum) ≠ 15 ∧ ready.readW 15 = 0x0804 ∧ ready.popReady = true ∧ ready.popped.popReady = true ∧
    (ready.putReg true 3 0x12).popReady = true ∧ (ready.putReg true 3 0x12).popped.popReady = true := by decide

theorem witness_ReturnFromException :
    ready.popReady = true ∧ ready.popped.popReady = true ∧ ready.popValue = 0x8101 ∧ ready.popped.popValue = 0x0102 := by
  decide

/-- DL = 7, each refused length, a loop of length 1 and one that ends before its start. -/
theorem witness_DoStarts :
    { ready with corcon := { State.reset.corcon with dl := 7 } }.corcon.dl = 7 ∧ ready.corcon.dl ≠ 7 ∧
    (0 : BitVec 16).toInt = 0 ∧ (0xFFFF : BitVec 16).toInt = -1 ∧ (0xFFFE : BitVec 16).toInt = -2 ∧
    (1 : BitVec 16).toInt ≠ 0 ∧ ready.pc.toNat + 4 < 2 ^ 23 ∧
    0 ≤ (ready.pc.toNat : Int) + (4 + 2 * (1 : BitVec 16).toInt) ∧
    0 ≤ ({ ready with pc := 0x000100 }.pc.toNat : Int) + (4 + 2 * (0xFFFD : BitVec 16).toInt) := by decide

/-- A stall and none, a jump, an advance, and an advance beyond the 23 bits. -/
theorem witness_StepAdvances :
    { ready with last := { Recent.empty with wrote := 4 } }.last.wrote.getLsbD 2 = true ∧
    { ready with cur := { Scratch.empty with srcEa := 4, psv := true } }.cur.srcEa.getLsbD 2 = true ∧
    (∀ r : Fin 16, ready.last.wrote.getLsbD r = true → ready.cur.srcEa.getLsbD r = false) ∧ ready.cur.psv = false ∧
    (loopRegsHazard .nop ready ready || iplHazard .nop ready ready) = false ∧
    { ready with cur := { Scratch.empty with jump := some 8 } }.cur.jump = some 8 ∧ ready.cur.jump = none ∧
    ready.sr.ra = false ∧ ready.atLoopEnd = false ∧ ready.pc.toNat + 2 * Instr.nop.words < 2 ^ 23 ∧
    2 ^ 23 ≤ { ready with pc := 0x7FFFFE }.pc.toNat + 2 * Instr.nop.words := by decide

/-- What the returns leave: RETURN nothing, RETLW its register, RETFIE the marks of the program it goes back to. -/
theorem witness_StepAdvances_returns :
    (loopRegsHazard .ret ready ready || iplHazard .ret ready ready) = false ∧
    after (finish (.retlw false 1 3) ready { ready with cur := { Scratch.empty with jump := some 8 } })
      (fun u => u.last.wrote == 8) = true ∧
    [Suspended.mk (ready.readW 15) 8 Recent.empty].find? (fun h => h.frame == ready.readW 15 && h.pc == 8) =
      some ⟨ready.readW 15, 8, Recent.empty⟩ := by decide

theorem witness_RepeatHolds :
    (loopRegsHazard .nop ready ready || iplHazard .nop ready ready) = false ∧
    { ready with sr := { State.reset.sr with ra := true } }.sr.ra = true ∧ ready.cur.jump = none ∧ ready.rcount = 0 ∧
    ready.pc.toNat + 2 * Instr.nop.words < 2 ^ 23 ∧ { ready with rcount := 1 }.rcount ≠ 0 := by decide

/-- The end of a loop of level 2 by its count and by an early termination, and a loop that goes on. -/
theorem witness_DoLoopTest :
    ready.sr.ra = false ∧ ready.cur.jump = none ∧
    { ready with corcon := { State.reset.corcon with dl := 2 } }.atLoopEnd = true ∧
    (loopRegsHazard .nop ready ready || iplHazard .nop ready ready) = false ∧ ready.dcount = 0 ∧
    ready.cur.edt = false ∧ { ready with edtPending := some 1 }.edtPending = some 1 ∧
    ready.pc.toNat + 2 * Instr.nop.words < 2 ^ 23 ∧ { ready with dcount := 1 }.dcount ≠ 0 ∧ ready.edtPending = none := by
  decide

/-- At the end of a loop: an instruction that no rule refuses, each length to avoid, a write of DOEND and one of IPL; and
the same refusals in the loop that the shadows hold. -/
theorem witness_DoLoopTest_refusals :
    { ready with corcon := { State.reset.corcon with dl := 2 } }.da = true ∧ ready.pc = ready.doend ∧
    contextRefusal .nop { ready with corcon := { State.reset.corcon with dl := 2 } } ≠ some .repeatTarget ∧
    contextRefusal .nop { ready with corcon := { State.reset.corcon with dl := 2 } } ≠ some .doLastInstruction ∧
    { ready with dostart := 2 }.dostart = ready.doend + 2 ∧ { ready with dostart := 4 }.dostart = ready.doend + 4 ∧
    loopRegsHazard .nop { ready with corcon := { State.reset.corcon with dl := 2 } }
      { ready with cur := { Scratch.empty with loopRegs := true } } = true ∧
    iplHazard .nop { ready with corcon := { State.reset.corcon with dl := 2 }, doend := 4 }
      { ready with cur := { Scratch.empty with ipl := true } } = true ∧
    contextRefusal (.disi 1) { ready with corcon := { State.reset.corcon with dl := 2 }, doend := 0x20 } =
      some .doLastInstruction ∧
    loopRegsHazard .nop { ready with corcon := { State.reset.corcon with dl := 2 }, doend := 0x20, doendShadow := 2 }
      { ready with cur := { Scratch.empty with loopRegs := true }, doend := 0x20 } = true ∧
    iplHazard .nop { ready with corcon := { State.reset.corcon with dl := 2 }, doend := 0x20, doendShadow := 4 }
      { ready with cur := { Scratch.empty with ipl := true } } = true := by decide

/-- A loop whose whole body is one GOTO ends on its second word (R478). -/
theorem test_loop_of_one_goto :
    contextRefusal (.goto 0x100)
      { ready with corcon := { State.reset.corcon with dl := 1 }, dostart := ready.pc, doend := ready.pc + 2 } =
      some .doLastInstruction := by decide

/-- The length of the loop of one GOTO is none of the three to avoid, and DO accepts it (R480). -/
theorem test_do_length_one :
    after (exec (.doLit 3 1) ready) (fun t => t.doend == t.dostart + 2) = true := by decide

/-- A trap above the CPU's level, and an interrupt that is not held off. -/
theorem witness_ExceptionAcceptance :
    (ready.pend .stack).accepted = some (.trap .stack) ∧ (ready.pend .stack).pendingTraps.has .stack = true ∧
    (ready.pend .stack).cpuLevel < 8 + (trapLevel ready.dev .stack).toNat ∧
    { ready with irq := some ⟨9, 4⟩ }.accepted = some (.irq 9) ∧ ready.cpuLevel < (4 : BitVec 3).toNat ∧
    ready.disicnt = 0 ∧ (9 : Nat) < ready.dev.interruptSources ∧ trapExists ready.dev (.other 3) = true ∧
    { ready with irq := some ⟨9, 7⟩, disicnt := 5 }.accepted = some (.irq 9) := by decide

/-- A trap and an interrupt. -/
theorem witness_ExceptionEntry :
    ready.resetReq = false ∧ (ready.pend .stack).accepted = some (.trap .stack) ∧ ready.readW 15 = 0x0804 ∧
    ready.data.wf = true ∧ ready.writable false 0x0804 = true ∧ ready.writable false (0x0804 + 2) = true ∧
    { ready with irq := some ⟨9, 4⟩ }.accepted = some (.irq 9) ∧ (0x0804 : Word).toNat + 2 < 2 ^ 16 := by decide

/-- The state after the entry of an interrupt, for the witness of `EntryThenReturn`. -/
def entered : State :=
  match step { ready with irq := some ⟨9, 4⟩ } with
  | .next t => t
  | .fault _ => ready
  | .refused _ => ready

theorem witness_EntryThenReturn :
    { ready with irq := some ⟨9, 4⟩ }.Inv ∧ { ready with irq := some ⟨9, 4⟩ }.accepted = some (.irq 9) ∧
    { ready with irq := some ⟨9, 4⟩ }.readW 15 = 0x0804 ∧
    { ready with irq := some ⟨9, 4⟩ }.writable false 0x0804 = true ∧
    { ready with irq := some ⟨9, 4⟩ }.writable false (0x0804 + 2) = true ∧
    step { ready with irq := some ⟨9, 4⟩ } = .next entered ∧ entered.writable false 0x0804 = true ∧
    entered.writable false (0x0804 + 2) = true ∧ entered.last.splim = false ∧ entered.stackBad 0x0804 false = false ∧
    entered.stackBad (0x0804 + 2) false = false ∧ entered.cur = Scratch.empty ∧
    ∀ u, iplHazard .retfie entered u = false := by
  refine ⟨⟨by decide, by decide, by decide, by decide, by decide, by decide, by decide, by decide, by decide, by decide,
    ?_, ?_, by decide⟩, by decide, by decide, by decide, by decide, rfl, by decide, by decide, by decide, by decide,
    by decide, by decide, fun _ => Bool.and_false _⟩
  · intro p h
    cases h
  · intro h
    exact absurd rfl h

/-- The last word of program memory and, with a smaller device, the word above it. -/
theorem witness_IllegalAddress :
    { ready with pc := 0x7FFFFC }.dev.progTop.toNat < { ready with pc := 0x7FFFFC }.pc.toNat + 4 ∧
    { ready with dev := { Device.default with progTop := 0x0002FE }, pc := 0x000300 }.resetReq = false ∧
    { ready with dev := { Device.default with progTop := 0x0002FE }, pc := 0x000300 }.accepted = none ∧
    { ready with dev := { Device.default with progTop := 0x0002FE }, pc := 0x000300 }.dev.progTop.toNat <
      { ready with pc := 0x000300 }.pc.toNat ∧ { ready with pc := 0x000300 }.pc.toNat + 2 < 2 ^ 23 := by decide

end Sys2Proof.Tests
end

section
/-! Scope: one step of the machine (spec/00_scope.md R14). A step runs the instruction that the bytes at the pc decode
to, and ends with the choice of the next pc, the cycle count and the countdown of DISICNT. -/

namespace Sys2Proof.Machine

/-! ### What a step runs -/

/-- The rows of two words hold CALL, GOTO and DO only (R151). -/
theorem decodeTwo_words {w1 w2 : ProgWord} {i : Instr} (h : decodeTwo w1 w2 = .ok i) : i.words = 2 := by
  unfold decodeTwo at h
  repeat' split at h
  all_goals cases h <;> rfl

/-- A first word that announces a second one belongs to an instruction of two words (R151). -/
theorem decode_words_of_firstWordLength {w : ProgWord} {bs rest : List Byte} {i : Instr}
    (hd : decode (bytesOfWord w ++ bs) = .ok (i, rest)) (hw : firstWordLength w = 2) : i.words = 2 := by
  match bs with
  | c0 :: c1 :: c2 :: _ =>
    simp only [bytesOfWord, List.cons_append, List.nil_append, decode, wordOfBytes_fields, hw, if_true] at hd
    cases h2 : decodeTwo w (wordOfBytes c0 c1 c2) with
    | ok j =>
      rw [h2] at hd
      cases hd
      exact decodeTwo_words h2
    | error e =>
      rw [h2] at hd
      cases hd
  | [] | [_] | [_, _] =>
    simp [bytesOfWord, decode, hw] at hd

/-- The fetch finds an instruction whose bytes stand at the address and whose words are all implemented (R120). -/
theorem fetchAt_of_decode {s : State} {a : PcAddr} {i : Instr} {rest : List Byte}
    (hd : decode (s.bytesAt a) = .ok (i, rest)) (hw : a.toNat + 2 * (i.words - 1) ≤ s.dev.progTop.toNat) :
    s.fetchAt a = .instr i := by
  have himpl : s.progImplemented a = true := decide_eq_true (by omega)
  have htwo : ¬ (firstWordLength (s.progWord a) = 2 ∧ s.dev.progTop.toNat < a.toNat + 2) := by
    rintro ⟨hl, htop⟩
    have := decode_words_of_firstWordLength hd hl
    omega
  simp [State.fetchAt, himpl, htwo, hd]

/-- The prefetch is noted only where it leaves the implemented words (R505). -/
theorem notePrefetch_eq_self {s : State} (h : s.pc.toNat + 4 ≤ s.dev.progTop.toNat) : s.notePrefetch = s :=
  if_neg (Nat.not_lt.2 h)

theorem step_eq_stepInstr {s : State} (hr : s.resetReq = false) (ha : s.accepted = none) : step s = stepInstr s := by
  simp [step, hr, ha]

section
variable {s : State} {i : Instr}

theorem stepInstr_context {r : Refusal} (hf : s.fetch = .instr i) (hc : contextRefusal i s = some r) :
    stepInstr s = .refused r := by
  simp only [stepInstr, hf, hc]

theorem stepInstr_next {t : State} (hf : s.fetch = .instr i) (hc : contextRefusal i s = none)
    (he : exec i s.notePrefetch = .next t) : stepInstr s = finish i s t := by
  simp only [stepInstr, hf, hc, he]

theorem stepInstr_fault {f : Fault} (hf : s.fetch = .instr i) (hc : contextRefusal i s = none)
    (he : exec i s.notePrefetch = .fault f) : stepInstr s = .fault f := by
  simp only [stepInstr, hf, hc, he]

theorem stepInstr_refused {r : Refusal} (hf : s.fetch = .instr i) (hc : contextRefusal i s = none)
    (he : exec i s.notePrefetch = .refused r) : stepInstr s = .refused r := by
  simp only [stepInstr, hf, hc, he]

end

/-! ### The cycle count -/

/-- A stall is one register that the instruction before wrote and a source address was computed from (R590). -/
theorem stalls_iff {t : State} :
    t.stalls = true ↔ ∃ r : Fin 16, t.last.wrote.getLsbD r = true ∧ t.cur.srcEa.getLsbD r = true := by
  have hne : t.stalls = true ↔ t.last.wrote &&& t.cur.srcEa ≠ 0#16 := bne_iff_ne
  rw [hne]
  constructor
  · intro h
    by_contra hn
    refine h (BitVec.eq_of_getLsbD_eq fun r hr => ?_)
    rw [BitVec.getLsbD_and, BitVec.getLsbD_zero]
    exact Bool.eq_false_iff.2 fun e => hn ⟨⟨r, hr⟩, Bool.and_eq_true_iff.1 e⟩
  · rintro ⟨r, hw, he⟩ h
    have hbit : (t.last.wrote &&& t.cur.srcEa).getLsbD r = false := by rw [h, BitVec.getLsbD_zero]
    rw [BitVec.getLsbD_and, hw, he] at hbit
    cases hbit

/-! ### The next pc -/

@[simp] theorem advanceEdt_cur (t : State) : t.advanceEdt.cur = t.cur := by
  obtain ⟨e, h⟩ := advanceEdt_eq t
  rw [h]

@[simp] theorem advanceEdt_pc (t : State) : t.advanceEdt.pc = t.pc := by
  obtain ⟨e, h⟩ := advanceEdt_eq t
  rw [h]

@[simp] theorem advanceEdt_atLoopEnd (t : State) : t.advanceEdt.atLoopEnd = t.atLoopEnd := by
  obtain ⟨e, h⟩ := advanceEdt_eq t
  rw [h]
  rfl

/-- The count of a pending early termination, as `advanceEdt` leaves it (R474). -/
theorem edtCounted_of_advanceEdt {t u : State} (h : u.edtPending = t.advanceEdt.edtPending) : EdtCounted t u := by
  unfold State.advanceEdt at h
  refine ⟨fun hn => ?_, fun he => ?_, fun he h0 => ?_, fun he h12 => ?_⟩
  · split at h <;> simpa [hn] using h
  · simpa [he] using h
  · simpa [he, h0] using h
  · rcases h12 with h1 | h2
    · simpa [he, h1] using h
    · simpa [he, h2] using h

theorem advance_fault {t : State} {words : Nat} (h : 2 ^ 23 ≤ t.pc.toNat + 2 * words) :
    t.advance words = .fault .pcOverflow :=
  if_neg (Nat.not_lt.2 h)

/-! ### The end of a step -/

/-- The state in which the step of `i` ends: `t` is what its meaning gave, `u` what the choice of the next pc made of
it. -/
def State.closed (u : State) (i : Instr) (t : State) : State :=
  { u with
    disicnt := BitVec.ofNat 14 (u.disicnt.toNat - stepCycles i t)
    last := recentAfter i t
    held := heldAfter i t
    cur := Scratch.empty }

theorem finish_eq_closed {i : Instr} {s t u : State} (hz : (loopRegsHazard i s t || iplHazard i s t) = false)
    (h : t.advanceEdt.choosePc s.sr.ra i.words = .next u) : finish i s t = .next (u.closed i t) :=
  finish_next hz h

theorem finish_fault {i : Instr} {s t : State} {f : Fault} (hz : (loopRegsHazard i s t || iplHazard i s t) = false)
    (h : t.advanceEdt.choosePc s.sr.ra i.words = .fault f) : finish i s t = .fault f := by
  rw [finish, hz, h]
  rfl

/-- The countdown of DISICNT stops at 0 (R530). -/
theorem closed_disicnt_toNat (u : State) (i : Instr) (t : State) :
    (u.closed i t).disicnt.toNat = u.disicnt.toNat - stepCycles i t := by
  have hlt := u.disicnt.isLt
  exact Nat.mod_eq_of_lt (by omega)

/-- A step ends as `StepEnds` says where the choice of the next pc moved no more than that claim names. -/
theorem stepEnds_closed {i : Instr} {t u : State}
    (rest : SameRest t { u with
      pc := t.pc, corcon := t.corcon, rcount := t.rcount, dcount := t.dcount, dostart := t.dostart, doend := t.doend,
      edtPending := t.edtPending })
    (registers : u.w = t.w ∧ u.wInit = t.wInit) (status : { u.sr with ra := t.sr.ra } = t.sr)
    (memory : u.data = t.data) : StepEnds i t (u.closed i t) where
  rest := { rest with counts := ⟨rfl, rfl, rfl⟩ }
  registers := registers
  status := status
  memory := memory
  countdown := by
    have hd : u.disicnt = t.disicnt := rest.counts.2.2
    rw [closed_disicnt_toNat, hd]
  idle := rfl
  marks := marksLeft_of_last rfl

/-- `t` gone on to the address `a` where no loop decides: the pc moved, and the count of an early termination. -/
def State.moved (t : State) (a : PcAddr) : State := { t.advanceEdt with pc := a }

theorem moved_eq (t : State) (a : PcAddr) : ∃ e, t.moved a = { t with pc := a, edtPending := e } := by
  obtain ⟨e, h⟩ := advanceEdt_eq t
  exact ⟨e, by rw [State.moved, h]⟩

/-- An instruction's own target is where the step goes (R14). -/
theorem choosePc_of_jump {t : State} {a : PcAddr} (hj : t.cur.jump = some a) (ra : Bool) (words : Nat) :
    t.advanceEdt.choosePc ra words = .next (t.moved a) := by
  simp only [State.choosePc, advanceEdt_cur, hj, State.moved]

section
variable {t : State} {words : Nat}

/-- With no target, no REPEAT and no end of a loop, the pc goes on in program order (R31). -/
theorem choosePc_eq_advance (hj : t.cur.jump = none) (hl : t.atLoopEnd = false) :
    t.advanceEdt.choosePc false words = t.advanceEdt.advance words := by
  simp [State.choosePc, hj, hl]

theorem choosePc_of_advance (hj : t.cur.jump = none) (hl : t.atLoopEnd = false)
    (h : t.pc.toNat + 2 * words < 2 ^ 23) :
    t.advanceEdt.choosePc false words = .next (t.moved (BitVec.ofNat 23 (t.pc.toNat + 2 * words))) := by
  rw [choosePc_eq_advance hj hl, advance_next (by rwa [advanceEdt_pc]), advanceEdt_pc, State.moved]

/-- Past the 23 bits there is no next instruction (R33). -/
theorem choosePc_of_overflow (hj : t.cur.jump = none) (hl : t.atLoopEnd = false)
    (h : 2 ^ 23 ≤ t.pc.toNat + 2 * words) : t.advanceEdt.choosePc false words = .fault .pcOverflow := by
  rw [choosePc_eq_advance hj hl, advance_fault (by rwa [advanceEdt_pc])]

end

theorem stepEnds_moved (i : Instr) (t : State) (a : PcAddr) : StepEnds i t ((t.moved a).closed i t) := by
  obtain ⟨e, h⟩ := moved_eq t a
  rw [h]
  exact stepEnds_closed (by constructor <;> simp) ⟨rfl, rfl⟩ rfl rfl

theorem loopsKept_moved (i : Instr) (t : State) (a : PcAddr) : LoopsKept t ((t.moved a).closed i t) := by
  have early : EdtCounted t ((t.moved a).closed i t) := edtCounted_of_advanceEdt rfl
  obtain ⟨e, h⟩ := moved_eq t a
  rw [h] at early ⊢
  exact ⟨rfl, ⟨rfl, rfl, rfl⟩, early⟩

/-- What else such a step keeps: SR with RA, RCOUNT, and the free values. -/
theorem closed_moved_kept (i : Instr) (t u : State) (a : PcAddr) (hu : u = (t.moved a).closed i t) :
    u.sr = t.sr ∧ u.rcount = t.rcount ∧ u.free = t.free := by
  obtain ⟨e, h⟩ := moved_eq t a
  rw [hu, h]
  exact ⟨rfl, rfl, rfl⟩

end Sys2Proof.Machine

namespace Sys2Proof.Proofs

open Sys2Proof.Machine

/-- Settles O53. The cycle count is the definition with the stall read as an existence; with no hazard a jump and an
advance both end in `(t.moved a).closed i t`, and the lemmas about that state say the rest. -/
theorem stepAdvances : Obligations.StepAdvances := by
  refine ⟨fun i t psv stall hpsv hstall => ?cycles, fun i s t hz => ⟨fun a hj => ?jump, fun hj hra hl hpc => ?advance,
    fun hj hra hl hpc => ?overflow⟩⟩
  case cycles =>
    have hp : (if t.cur.psv then 2 else 0) = psv := by rcases hpsv with ⟨h, rfl⟩ | ⟨h, rfl⟩ <;> simp [h]
    have hs : (if t.stalls then 1 else 0) = stall := by
      rcases hstall with ⟨h, rfl⟩ | ⟨h, rfl⟩
      · exact if_pos (stalls_iff.2 h)
      · refine if_neg fun hst => ?_
        obtain ⟨r, hw, he⟩ := stalls_iff.1 hst
        exact absurd he (Bool.eq_false_iff.1 (h r hw))
    rw [stepCycles, hp, hs, baseCycles_eq]
  case jump =>
    obtain ⟨hsr, hrc, hfree⟩ := closed_moved_kept i t _ a rfl
    exact ⟨_, finish_eq_closed hz (choosePc_of_jump hj _ _), rfl, stepEnds_moved i t a, loopsKept_moved i t a, hsr, hrc,
      hfree, fun hi => heldAfter_eq (.inl hi)⟩
  case advance =>
    have hc := choosePc_of_advance hj hl hpc
    rw [← hra] at hc
    obtain ⟨hsr, hrc, hfree⟩ := closed_moved_kept i t _ (BitVec.ofNat 23 (t.pc.toNat + 2 * i.words)) rfl
    exact ⟨_, finish_eq_closed hz hc, Nat.mod_eq_of_lt hpc, stepEnds_moved i t _, loopsKept_moved i t _, hsr, hrc, hfree,
      heldAfter_eq (.inr hj)⟩
  case overflow =>
    exact finish_fault hz (by rw [hra, choosePc_of_overflow hj hl hpc])

/-- Settles O5: the fetch finds the decoded instruction, and `stepInstr` runs it. -/
theorem stepRunsDecoded : Obligations.StepRunsDecoded := by
  intro s i rest hr ha hd hw
  have hf : s.fetch = .instr i := fetchAt_of_decode hd hw
  rw [step_eq_stepInstr hr ha]
  exact ⟨fun r hc => stepInstr_context hf hc,
    fun hc => ⟨fun t => stepInstr_next hf hc, fun f => stepInstr_fault hf hc, fun r => stepInstr_refused hf hc⟩,
    notePrefetch_eq_self⟩

end Sys2Proof.Proofs
end

section
/-! Family 10_state. The reset state, the invariant over every step, operands that cannot be reached, SR and CORCON as
words and as targets of a software write. -/

namespace Sys2Proof.Machine

/-! ### Results of operations -/

/-- A stop that did not happen: its condition is false, and the state is as it was. -/
theorem stopIf_ok {c : Bool} {e : Stop} {s t : State} {a : Unit} (h : (stopIf c e).run s = .ok a t) :
    c = false ∧ t = s := by
  cases c
  · exact ⟨rfl, by cases h; rfl⟩
  · cases h

theorem pcPlus_run_ok {pc a : PcAddr} {k : Int} {s t : State} (h : (pcPlus pc k).run s = .ok a t) :
    a = BitVec.ofInt 23 ((pc.toNat : Int) + k) ∧ t = s := by
  rw [run_pcPlus] at h
  split at h <;> cases h
  exact ⟨rfl, rfl⟩

theorem Keeps.held_of_ok {α : Type} {m : M α} {s t : State} {a : α} (hm : Keeps m) (hs : s.Held)
    (h : m.run s = .ok a t) : t.Held := by
  have hk := hm s hs
  rw [KeepsAt, h] at hk
  exact hk

theorem keeps_getS_of {β : Type} {f : State → M β} (hf : ∀ s, Keeps (f s)) : Keeps (getS >>= f) :=
  keeps_getS fun s h => hf s s h

theorem keeps_pcPlus (pc : PcAddr) (k : Int) : Keeps (pcPlus pc k) := by
  intro s h
  rw [KeepsAt, run_pcPlus]
  split
  · exact h
  · trivial

/-! ### The instructions keep the invariant: data movement and the MCU ALU -/

theorem keeps_readDouble (src : Operand) : Keeps (readDouble src) :=
  keeps_ite
    (keeps_bind (keeps_refuseOdd _) fun _ => keeps_bind (keeps_readW _) fun _ => keeps_bind (keeps_readW _) fun _ =>
      keeps_pure _)
    (keeps_bind (keeps_sourceAddress _ _ _) fun _ => keeps_bind (keeps_memRead _ _) fun _ =>
      keeps_bind (keeps_checkEa _ _ _) fun _ => keeps_bind (keeps_memRead _ _) fun _ => keeps_pure _)

theorem keeps_writeDouble (dst : Operand) (lo hi : Word) : Keeps (writeDouble dst lo hi) :=
  keeps_ite
    (keeps_bind (keeps_refuseOdd _) fun _ => keeps_bind (keeps_writeWord _ _) fun _ => keeps_writeWord _ _)
    (keeps_bind (keeps_operandAddress _ _ _) fun _ => keeps_bind (keeps_memWrite _ _ _) fun _ =>
      keeps_bind (keeps_checkEa _ _ _) fun _ => keeps_memWrite _ _ _)

theorem keeps_writeProduct (d : RegNum) (p : Int) : Keeps (writeProduct d p) :=
  keeps_bind (keeps_writeWord _ _) fun _ => keeps_writeWord _ _

theorem keeps_multiply (signedB signedS : Bool) (b d : RegNum) (src : Operand) :
    Keeps (multiply signedB signedS b d src) :=
  keeps_bind (keeps_refuseOdd _) fun _ => keeps_bind (keeps_refuseConflict _) fun _ =>
    keeps_bind (keeps_readW _) fun _ => keeps_bind (keeps_readOperand _ _ _) fun _ => keeps_writeProduct _ _

theorem keeps_shiftInto (kind : ShiftKind) (b d : RegNum) (count : Nat) : Keeps (shiftInto kind b d count) :=
  keeps_bind (keeps_readW _) fun _ => keeps_bind (keeps_aluShiftMany _ _ _) fun _ => keeps_writeWord _ _

/-! ### Fields that the invariant does not speak of -/

theorem held_withDisicnt {s : State} (h : s.Held) (n : BitVec 14) : ({ s with disicnt := n } : State).Held :=
  { h with pc := h.pc }

theorem held_withRcount {s : State} (h : s.Held) (n : BitVec 14) : ({ s with rcount := n } : State).Held :=
  { h with pc := h.pc }

theorem held_withShadows {s : State} (h : s.Held) (w : Vector Word 4) (f : FlagShadow) :
    ({ s with wShadow := w, srShadow := f } : State).Held := { h with pc := h.pc }

/-! ### Divides -/

theorem held_withDiv {s : State} (h : s.Held) {d : Option DivProgress} (hd : ∀ p, d = some p → 1 ≤ p.k ∧ p.k ≤ 17) :
    ({ s with div := d } : State).Held := { h with div := hd }

theorem held_withIntcon1 {s : State} (h : s.Held) (c : IntControl) : ({ s with intcon1 := c } : State).Held :=
  { h with }

theorem keeps_drawFlags : Keeps drawFlags := keeps_bind (keeps_draw _) fun _ => keeps_modSr _

theorem keeps_drawPair : Keeps drawPair :=
  keeps_bind (keeps_draw _) fun _ => keeps_bind (keeps_draw _) fun _ => keeps_bind (keeps_writeWord _ _) fun _ =>
    keeps_writeWord _ _

theorem keeps_settle (q : Quotient) : Keeps (settle q) := by
  cases q with
  | some p => exact keeps_pure p
  | none => exact keeps_bind (keeps_draw _) fun _ => keeps_bind (keeps_draw _) fun _ => keeps_pure _

/-- Executions 1 to 17 leave a divide under way, the 18th ends it (R386). -/
theorem keeps_divIterate {k : Nat} (h1 : 1 ≤ k) (h18 : k ≤ 18) (q r : Word) : Keeps (divIterate k q r) := by
  refine keeps_bind keeps_drawFlags fun _ => ?_
  split
  · exact keeps_bind (keeps_writeWord _ _) fun _ => keeps_bind (keeps_writeWord _ _) fun _ =>
      keeps_modS fun s h => held_withDiv h fun _ e => nomatch e
  · refine keeps_bind keeps_drawPair fun _ => keeps_modS fun s h => held_withDiv h fun p e => ?_
    cases e
    exact ⟨h1, show k ≤ 17 by omega⟩

theorem div_of_divideUnderWay {s : State} {p : DivProgress} (h : s.divideUnderWay = some p) : s.div = some p := by
  unfold State.divideUnderWay at h
  split at h
  · split at h
    · rename_i hd _; rw [hd, h]
    · cases h
  · cases h

theorem keeps_divStep (zeroDivisor : Bool) (q : Quotient) : Keeps (divStep zeroDivisor q) := by
  refine keeps_getS fun s h => ?_
  cases hu : s.divideUnderWay with
  | some p =>
    obtain ⟨h1, h17⟩ := h.div p (div_of_divideUnderWay hu)
    exact keeps_divIterate (by omega) (by omega) _ _ s h
  | none =>
    refine keeps_ite ?_ ?_ s h
    · exact keeps_bind keeps_drawFlags fun _ => keeps_bind keeps_drawPair fun _ =>
        keeps_bind (keeps_modS fun s h => held_withIntcon1 h _) fun _ => keeps_raise _
    · exact keeps_bind (keeps_settle q) fun _ => keeps_divIterate (Nat.le_refl 1) (by omega) _ _

theorem keeps_refuseNoPair (hi lo : RegNum) : Keeps (refuseNoPair hi lo) := keeps_stopRefused _ _

/-! ### The DSP engine -/

theorem held_accWrite {s : State} (h : s.Held) (a : Acc) (t : Int) : (s.accWrite a t).Held := by
  unfold State.accWrite
  have hu := held_withIntcon1 (held_withSr (held_setAcc h a (accResult (s.corcon.satOf a) s.corcon.accsat t).value)
    (s.sr.withAcc a (accResult (s.corcon.satOf a) s.corcon.accsat t)))
    (s.intcon1.withAcc a (accResult (s.corcon.satOf a) s.corcon.accsat t))
  dsimp only
  split
  · exact held_pend hu _
  · exact hu

theorem keeps_accWrite (a : Acc) (t : Int) : Keeps (accWrite a t) := keeps_modS fun _ h => held_accWrite h a t

theorem keeps_spaceRead (ySpace : Bool) (ea : Word) : Keeps (spaceRead ySpace ea) :=
  keeps_bind (keeps_addressErrorIf _) fun _ => keeps_getS_of fun _ => keeps_bind (keeps_stopFault _ _) fun _ =>
    keeps_bind (keeps_stopFault _ _) fun _ => keeps_memRead _ _

theorem keeps_prefetchRead (ySpace : Bool) (p : Prefetch) : Keeps (prefetchRead ySpace p) := by
  cases p with
  | none => exact keeps_pure _
  | pointer second step =>
    exact keeps_bind (keeps_sourceThrough _) fun _ => keeps_bind (keeps_ptr _) fun _ =>
      keeps_bind (keeps_spaceRead _ _) fun _ => keeps_pure _
  | indexed =>
    exact keeps_bind (keeps_sourceThrough _) fun _ => keeps_bind (keeps_sourceThrough _) fun _ =>
      keeps_bind (keeps_ptr _) fun _ => keeps_bind (keeps_readW _) fun _ =>
        keeps_bind (keeps_spaceRead _ _) fun _ => keeps_pure _

theorem keeps_prefetchModify (ySpace : Bool) (p : Prefetch) : Keeps (prefetchModify ySpace p) := by
  cases p with
  | none => exact keeps_pure _
  | indexed => exact keeps_pure _
  | pointer second step =>
    exact keeps_ite (keeps_pure _) (keeps_bind (keeps_readW _) fun _ => keeps_writeWord _ _)

theorem keeps_prefetchWrite (r : RegNum) (v : Option Word) : Keeps (prefetchWrite r v) := by
  cases v with
  | none => exact keeps_pure _
  | some x => exact keeps_writeWord r x

theorem keeps_prefetchReads (x y : Prefetch) : Keeps (prefetchReads x y) :=
  keeps_bind (keeps_prefetchRead _ _) fun _ => keeps_bind (keeps_prefetchRead _ _) fun _ => keeps_pure _

theorem keeps_prefetchMoveBoth (x y : Prefetch) : Keeps (prefetchMoveBoth x y) :=
  keeps_bind (keeps_prefetchModify _ _) fun _ => keeps_prefetchModify _ _

theorem keeps_writeBack (wb : WriteBack) (v : Word) : Keeps (writeBack wb v) := by
  cases wb with
  | none => exact keeps_pure _
  | w13 => exact keeps_writeWord _ _
  | w13Inc =>
    exact keeps_bind (keeps_ptr _) fun _ => keeps_bind (keeps_addressErrorIf _) fun _ =>
      keeps_bind (keeps_writeWord _ _) fun _ => keeps_memWrite _ _ _

theorem keeps_macClass (m n : RegNum) (a : Acc) (xd yd : BitVec 2) (x y : Prefetch) (wb : WriteBack)
    (f : Int → Int → Int) : Keeps (macClass m n a xd yd x y wb f) :=
  keeps_bind (keeps_refuseConflict _) fun _ => keeps_getS_of fun _ => keeps_bind (keeps_prefetchReads _ _) fun _ =>
    keeps_bind (keeps_accWrite _ _) fun _ => keeps_bind (keeps_prefetchWrite _ _) fun _ =>
      keeps_bind (keeps_prefetchWrite _ _) fun _ => keeps_bind (keeps_prefetchMoveBoth _ _) fun _ => keeps_writeBack _ _

theorem keeps_distance (m : BitVec 2) (a : Acc) (xd : BitVec 2) (x y : Prefetch) (f : Int → Int → Int) :
    Keeps (distance m a xd x y f) :=
  keeps_bind (keeps_stopRefused _ _) fun _ => keeps_getS_of fun _ => keeps_bind (keeps_prefetchReads _ _) fun _ =>
    keeps_bind (keeps_accWrite _ _) fun _ => keeps_bind (keeps_writeWord _ _) fun _ => keeps_prefetchMoveBoth _ _

theorem keeps_shiftAcc (a : Acc) (k : Int) : Keeps (shiftAcc a k) :=
  keeps_getS_of fun _ => keeps_ite
    (keeps_bind (keeps_modS fun _ h => held_withIntcon1 h _) fun _ => keeps_raise _) (keeps_accWrite _ _)

/-! ### Program flow and loops -/

theorem keeps_skipNext : Keeps skipNext :=
  keeps_getS_of fun _ => keeps_bind (keeps_pcPlus _ _) fun _ => keeps_bind (keeps_pcPlus _ _) fun _ =>
    keeps_bind (keeps_jumpTo _) fun _ => keeps_modS fun _ h => { h with }

theorem keeps_tableAddress (ea : Word) : Keeps (tableAddress ea) :=
  keeps_getS_of fun _ => keeps_bind (keeps_stopFault _ _) fun _ => keeps_pure _

theorem held_startRepeat {s : State} (h : s.Held) (count : BitVec 14) : (s.startRepeat count).Held :=
  { h with div := fun _ e => nomatch e }

/-- A loop deeper is a level other than 0, where DO accepts the level (R460, U12). -/
theorem loopLevel_succ_ne_zero {d : BitVec 3} (h : d ≠ 7) : d + 1 ≠ 0 := by
  revert d
  decide

theorem held_startDo {s : State} (h : s.Held) (count : BitVec 14) {first lastAddr : PcAddr} (hdl : s.corcon.dl ≠ 7)
    (hf : evenBits first = true) (hl : evenBits lastAddr = true) : (s.startDo count first lastAddr).Held := by
  have hloop := h.loopRegs
  simp only [Bool.and_eq_true] at hloop
  obtain ⟨⟨⟨hs, he⟩, -⟩, -⟩ := hloop
  exact { h with
    loopRegs := by simp [State.startDo, State.mark, State.markLoop, hf, hl, hs, he]
    edt := fun _ => loopLevel_succ_ne_zero hdl }

theorem keeps_startLoop (count : BitVec 14) (off : BitVec 16) : Keeps (startLoop count off) := by
  refine keeps_getS fun s h => keepsAt_bind (keeps_stopRefused _ _ s h) fun _ t e _ => ?_
  obtain ⟨hdl, rfl⟩ := stopIf_ok e
  refine keepsAt_bind (keeps_stopRefused _ _ t h) fun _ u e _ => ?_
  obtain ⟨-, rfl⟩ := stopIf_ok e
  refine keepsAt_bind (keeps_pcPlus _ _ u h) fun first v e _ => ?_
  obtain ⟨rfl, rfl⟩ := pcPlus_run_ok e
  refine keepsAt_bind (keeps_pcPlus _ _ v h) fun lastAddr w e _ => ?_
  obtain ⟨rfl, rfl⟩ := pcPlus_run_ok e
  exact held_startDo h count (by simpa using hdl) (pcPlus_even h.pc (by omega)) (pcPlus_even h.pc (by omega))

/-! ### Every instruction -/

/-- What every instruction makes of a state that holds the invariant holds it, but for the record of the instruction
itself. -/
theorem exec_held {i : Instr} {s t : State} (hs : s.Held) (h : exec i s = .next t) : t.Held := by
  cases i with
  | nop => exact outcome_held (keeps_pure ()) hs h
  | goto target => exact outcome_held (keeps_jumpTo _) hs h
  | bra off => exact outcome_held (keeps_bind (keeps_pcPlus _ _) fun _ => keeps_jumpTo _) hs h
  | call target =>
    exact outcome_held (keeps_bind (keeps_pcPlus _ _) fun _ => keeps_bind (keeps_pushPcCall _) fun _ => keeps_jumpTo _)
      hs h
  | rcall off =>
    exact outcome_held (keeps_bind (keeps_pcPlus _ _) fun _ => keeps_bind (keeps_pcPlus _ _) fun _ =>
      keeps_bind (keeps_pushPcCall _) fun _ => keeps_jumpTo _) hs h
  | ret => exact outcome_held keeps_returnFromCall hs h
  | retlw byte lit d =>
    exact outcome_held (keeps_bind (keeps_refuseConflict _) fun _ => keeps_bind (keeps_writeReg _ _ _) fun _ =>
      keeps_returnFromCall) hs h
  | retfie => exact outcome_held keeps_returnFromException hs h
  | doLit count off | doReg r off => exact outcome_held (keeps_startLoop _ _) hs h
  | repeatLit count | repeatReg r => exact outcome_held (keeps_modS fun _ h => held_startRepeat h _) hs h
  | disi lit =>
    have h : execDisi lit s = .next t := h
    unfold execDisi at h
    exact outcome_held (keeps_modS fun _ h => held_withDisicnt h lit) hs h
  | reset => exact outcome_held (keeps_modS fun _ h => deviceReset_held h) hs h
  | tblrdl byte dst src =>
    exact outcome_held (keeps_bind (keeps_stopRefused _ _) fun _ => keeps_bind (keeps_refuseConflict _) fun _ =>
      keeps_bind (keeps_sourceAddress _ _ _) fun _ => keeps_bind (keeps_addressErrorIf _) fun _ =>
      keeps_bind (keeps_tableAddress _) fun _ => keeps_bind (keeps_progData _) fun _ => keeps_writeOperand _ _ _ _) hs h
  | mov b byte dst src =>
    exact outcome_held (keeps_bind (keeps_refuseConflict _) fun _ => keeps_bind (keeps_readOperand _ _ _) fun _ =>
      keeps_writeOperand _ _ _ _) hs h
  | movFromFile f d => exact outcome_held (keeps_bind (keeps_memRead _ _) fun _ => keeps_writeWord _ _) hs h
  | movToFile f r | movWregToFile byte f =>
    exact outcome_held (keeps_bind (keeps_readW _) fun _ => keeps_memWrite _ _ _) hs h
  | movLit16 lit d => exact outcome_held (keeps_writeWord _ _) hs h
  | movLit8 lit d => exact outcome_held (keeps_writeByte _ _) hs h
  | movDLoad d src =>
    exact outcome_held (keeps_bind (keeps_refuseOdd _) fun _ => keeps_bind (keeps_refuseConflict _) fun _ =>
      keeps_bind (keeps_readDouble _) fun _ => keeps_bind (keeps_writeWord _ _) fun _ => keeps_writeWord _ _) hs h
  | movDStore dst r =>
    exact outcome_held (keeps_bind (keeps_refuseOdd _) fun _ => keeps_bind (keeps_readW _) fun _ =>
      keeps_bind (keeps_readW _) fun _ => keeps_writeDouble _ _ _) hs h
  | se d src | ze d src =>
    exact outcome_held (keeps_bind (keeps_refuseConflict _) fun _ => keeps_bind (keeps_readOperand _ _ _) fun _ =>
      keeps_bind (keeps_modSr _) fun _ => keeps_writeWord _ _) hs h
  | push r => exact outcome_held (keeps_bind (keeps_readW _) fun _ => keeps_push _) hs h
  | pop d =>
    exact outcome_held (keeps_bind (keeps_refuseConflict _) fun _ => keeps_bind keeps_pop fun _ => keeps_writeWord _ _)
      hs h
  | pushS =>
    have h : execPushS s = .next t := h
    unfold execPushS at h
    exact outcome_held (keeps_modS fun _ h => held_withShadows h _ _) hs h
  | popS =>
    have h : execPopS s = .next t := h
    unfold execPopS at h
    refine outcome_held ?_ hs h
    exact keeps_bind (keeps_writeWord _ _) fun _ => keeps_bind (keeps_writeWord _ _) fun _ =>
      keeps_bind (keeps_writeWord _ _) fun _ => keeps_bind (keeps_writeWord _ _) fun _ => keeps_modSr _
  | lnk lit =>
    exact outcome_held (keeps_bind (keeps_readW _) fun _ => keeps_bind (keeps_push _) fun _ =>
      keeps_bind (keeps_readW _) fun _ => keeps_bind (keeps_writeWord _ _) fun _ => keeps_writeWord _ _) hs h
  | ulnk =>
    exact outcome_held (keeps_bind (keeps_readW _) fun _ => keeps_bind (keeps_writeWord _ _) fun _ =>
      keeps_bind keeps_pop fun _ => keeps_writeWord _ _) hs h
  | addReg b byte dst src =>
    exact outcome_held (keeps_bind (keeps_refuseConflict _) fun _ => keeps_bind (keeps_readW _) fun _ =>
      keeps_bind (keeps_readOperand _ _ _) fun _ => keeps_bind (keeps_aluAdd _ _ _) fun _ =>
      keeps_writeOperand _ _ _ _) hs h
  | addFile byte toFile f =>
    exact outcome_held (keeps_fileOp fun _ => keeps_bind (keeps_readW _) fun _ => keeps_aluAdd _ _ _) hs h
  | bsetFile bit f | bclrFile bit f =>
    exact outcome_held (keeps_bind (keeps_memRead _ _) fun _ => keeps_memWrite _ _ _) hs h
  | btscFile bit f =>
    exact outcome_held (keeps_bind (keeps_memRead _ _) fun _ => keeps_ite (keeps_pure _) keeps_skipNext) hs h
  | slOne byte dst src | lsrOne byte dst src | asrOne byte dst src =>
    exact outcome_held (keeps_unaryOp fun _ => keeps_aluShiftOne _ _ _) hs h
  | slFile byte toFile f | lsrFile byte toFile f | asrFile byte toFile f =>
    exact outcome_held (keeps_fileOp fun _ => keeps_aluShiftOne _ _ _) hs h
  | slReg b d r | lsrReg b d r | asrReg b d r | slLit b d k | lsrLit b d k | asrLit b d k =>
    exact outcome_held (keeps_shiftInto _ _ _ _) hs h
  | mulUU b d src | mulUS b d src | mulSU b d src | mulSS b d src => exact outcome_held (keeps_multiply _ _ _ _ _) hs h
  | mulFile byte f =>
    exact outcome_held (keeps_bind (keeps_memRead _ _) fun _ => keeps_bind (keeps_readW _) fun _ =>
      keeps_ite (keeps_writeWord _ _) (keeps_writeProduct _ _)) hs h
  | divSW m n | divUW m n | divF m n => exact outcome_held (keeps_divStep _ _) hs h
  | divSD hi lo n | divUD hi lo n =>
    exact outcome_held (keeps_bind (keeps_refuseNoPair _ _) fun _ => keeps_divStep _ _) hs h
  | mac m a xd yd x y wb | msc m a xd yd x y wb | mpy m a xd yd x y | mpyN m a xd yd x y | macSq m a xd yd x y
  | mpySq m a xd yd x y =>
    exact outcome_held (keeps_macClass _ _ _ _ _ _ _ _ _) hs h
  | ed m a xd x y | edac m a xd x y => exact outcome_held (keeps_distance _ _ _ _ _ _) hs h
  | sftacReg a r | sftacLit a amount => exact outcome_held (keeps_shiftAcc _ _) hs h
  | addAccSrc a b shift src =>
    exact outcome_held (keeps_bind (keeps_readOperand _ _ _) fun _ => keeps_getS_of fun _ => keeps_accWrite _ _) hs h
  | lac a b shift src =>
    exact outcome_held (keeps_bind (keeps_readOperand _ _ _) fun _ => keeps_accWrite _ _) hs h
  | addAcc a => exact outcome_held (keeps_accWrite _ _) hs h
  | sac a b shift dst | sacR a b shift dst => exact outcome_held (keeps_writeOperand _ _ _ _) hs h
  | addLit5 | addLit10 | bsetInd | bclrInd | btscInd | movFile | pwrsav => exact nomatch h

/-! ### The choice of the next pc -/

section
variable {t u : State}

theorem held_withPc (h : t.Held) {a : PcAddr} (ha : evenBits a = true) : ({ t with pc := a } : State).Held :=
  { h with pc := ha }

theorem held_advanceEdt (h : t.Held) : t.advanceEdt.Held := by
  unfold State.advanceEdt
  split
  · exact h
  · refine { h with edt := fun hp => h.edt fun hn => hp ?_ }
    simp only [hn]

theorem held_advance {words : Nat} (h : t.Held) (hu : t.advance words = .next u) : u.Held := by
  unfold State.advance at hu
  split at hu <;> cases hu
  have hp := evenBits_toNat.1 h.pc
  exact held_withPc h (evenBits_ofNat (by omega))

theorem held_holdRepeat {words : Nat} (h : t.Held) (hu : t.holdRepeat words = .next u) : u.Held := by
  unfold State.holdRepeat at hu
  split at hu
  · exact held_advance (held_withSr h _) hu
  · cases hu
    exact held_withRcount (held_withSr h { t.sr with ra := t.sr.ra && t.rcount - 1 != 0 }) _

/-- The loop further out comes back from the shadows, and no early termination is pending any more (R470). -/
theorem held_leaveLoop (h : t.Held) : t.leaveLoop.Held := by
  have hloop := h.loopRegs
  simp only [Bool.and_eq_true] at hloop
  obtain ⟨⟨⟨-, -⟩, hs⟩, he⟩ := hloop
  unfold State.leaveLoop
  dsimp only
  split
  · exact { h with
      loopRegs := by simp only [hs, he, Bool.and_self]
      edt := fun hn => absurd rfl hn }
  · split <;> exact { h with edt := fun hn => absurd rfl hn }

theorem held_loopTest {words : Nat} (h : t.Held) (hu : t.loopTest words = .next u) : u.Held := by
  unfold State.loopTest at hu
  split at hu
  · exact held_advance (held_leaveLoop h) hu
  · cases hu
    have hloop := h.loopRegs
    simp only [Bool.and_eq_true] at hloop
    obtain ⟨⟨⟨hs, -⟩, -⟩, -⟩ := hloop
    exact { h with pc := hs }

/-- Every way on leads from a state that holds the invariant to one that does (R14). -/
theorem held_choosePc {ra : Bool} {words : Nat} (h : t.Held) (hu : t.choosePc ra words = .next u) : u.Held := by
  unfold State.choosePc at hu
  split at hu
  · rename_i a hj
    cases hu
    exact held_withPc h (h.jump a hj)
  · split at hu
    · exact held_holdRepeat h hu
    · split at hu
      · exact held_loopTest h hu
      · exact held_advance h hu

end

theorem State.Held.inv_idle {s : State} (h : s.Held) : ({ s with cur := Scratch.empty } : State).Inv :=
  { h with idle := rfl }

theorem inv_closed {u : State} (h : u.Held) (i : Instr) (t : State) : (u.closed i t).Inv :=
  { h with idle := rfl }

theorem finish_inv {i : Instr} {s t u : State} (h : t.Held) (hu : finish i s t = .next u) : u.Inv := by
  cases hz : (loopRegsHazard i s t || iplHazard i s t) with
  | true => rw [finish_hazard hz] at hu; cases hu
  | false =>
    cases hc : t.advanceEdt.choosePc s.sr.ra i.words with
    | next v =>
      rw [finish_eq_closed hz hc] at hu
      cases hu
      exact inv_closed (held_choosePc (held_advanceEdt h) hc) i t
    | fault f => rw [finish_fault hz hc] at hu; cases hu
    | refused r => rw [finish, hz, hc] at hu; cases hu

theorem held_notePrefetch {s : State} (h : s.Held) : s.notePrefetch.Held := by
  unfold State.notePrefetch
  split
  · exact held_pend h _
  · exact h

theorem missingInstruction_inv {words : Nat} {s t : State} (h : s.Inv) (ht : missingInstruction words s = .next t) :
    t.Inv := by
  have hpend : ({ s.pend .illegal with last := Recent.empty } : State).Held :=
    { held_pend h.held .illegal with pc := h.pc }
  refine (held_advance hpend ht).inv ?_
  unfold missingInstruction State.advance at ht
  split at ht <;> cases ht
  exact h.idle

theorem stepInstr_inv {s t : State} (h : s.Inv) (ht : stepInstr s = .next t) : t.Inv := by
  unfold stepInstr at ht
  split at ht
  · exact missingInstruction_inv h ht
  · cases ht
  · split at ht
    · cases ht
    · split at ht
      · rename_i u hu
        exact finish_inv (exec_held (held_notePrefetch h.held) hu) ht
      · cases ht
      · cases ht

/-! ### The entry of an exception -/

/-- The operation, begun in this state, runs through, faults or is refused: the instruction does not end in it. -/
def RunsOn {α : Type} (m : M α) (s : State) : Prop := ∀ t, m.run s ≠ .error .ended t

theorem runsOn_of_ok {α : Type} {m : M α} {s t : State} {a : α} (h : m.run s = .ok a t) : RunsOn m s := by
  intro u hu
  rw [h] at hu
  cases hu

theorem runsOn_bind {α β : Type} {x : M α} {f : α → M β} {s : State} (hx : RunsOn x s)
    (hf : ∀ a t, x.run s = .ok a t → RunsOn (f a) t) : RunsOn (x >>= f) s := by
  intro u hu
  rw [run_bind] at hu
  cases e : x.run s with
  | ok a t => rw [e] at hu; exact hf a t e u hu
  | error r t =>
    rw [e] at hu
    cases hu
    exact hx _ e

theorem runsOn_stopIf {c : Bool} {e : Stop} (he : e ≠ .ended) (s : State) : RunsOn (stopIf c e) s := by
  intro t ht
  cases c <;> cases ht
  exact he rfl

theorem noMemory_ne_ended (d : Device) (a : Word) : noMemory d a ≠ .ended := by
  unfold noMemory
  split <;> exact fun h => nomatch h

theorem writeCorcon_runsOn (v : Word) (s : State) : RunsOn (writeCorcon v) s := by
  refine runsOn_bind (runsOn_of_ok (run_getS s)) fun u t _ => runsOn_bind (runsOn_stopIf (by simp) t) fun _ t _ =>
    runsOn_bind (runsOn_of_ok (run_modS _ t)) fun _ t _ => ?_
  split
  · exact runsOn_of_ok (run_modS _ t)
  · exact runsOn_of_ok (run_pure _ t)

/-- A write to a CPU register is made or refused. -/
theorem writeSfr_runsOn (r : Sfr) (v : Word) (b : Bool) (s : State) : RunsOn (writeSfr r v b) s := by
  cases r with
  | corcon => exact writeCorcon_runsOn v s
  | pcl | pch => exact fun _ h => nomatch h
  | modcon | xbrev =>
    exact runsOn_bind (runsOn_stopIf (by simp) s) fun _ t _ => runsOn_of_ok (run_modS _ t)
  | _ => exact runsOn_of_ok (run_modS _ s)

/-- At an even address no write ends the instruction. -/
theorem memWrite_runsOn {a : Word} (ha : evenBits a = true) (v : Word) (s : State) : RunsOn (memWrite false a v) s := by
  have h0 : (!false && a.getLsbD 0) = false := by simpa [evenBits] using ha
  unfold memWrite
  rw [h0]
  refine runsOn_bind (runsOn_of_ok (run_addressErrorIf_false s)) fun _ t _ =>
    runsOn_bind (runsOn_of_ok (run_getS t)) fun u t _ => ?_
  split
  · exact writeSfr_runsOn _ _ _ t
  · exact runsOn_bind (runsOn_stopIf (by simp) t) fun _ t _ =>
      runsOn_bind (runsOn_stopIf (noMemory_ne_ended _ _) t) fun _ t _ => runsOn_of_ok (run_modS _ t)

theorem pushInEntry_runsOn {s : State} (h : s.Held) (v : Word) : RunsOn (pushInEntry v) s := by
  refine runsOn_bind (runsOn_of_ok (run_readW 15 s)) fun ea t e => ?_
  cases e
  exact runsOn_bind (runsOn_of_ok (run_modS _ s)) fun _ t _ => runsOn_bind (memWrite_runsOn h.w15 v t) fun _ t _ =>
    runsOn_bind (runsOn_of_ok (run_readW 15 t)) fun _ t _ => runsOn_of_ok (run_writeWord _ _ t)

theorem enterException_runsOn {s : State} (h : s.Held) (e : Exc) : RunsOn (enterException e) s := by
  refine runsOn_bind (runsOn_of_ok (run_getS s)) fun u t hu => ?_
  cases hu
  refine runsOn_bind (pushInEntry_runsOn h _) fun _ t ht => runsOn_bind (runsOn_of_ok (run_getS t)) fun v w hv => ?_
  cases hv
  exact runsOn_bind (pushInEntry_runsOn ((keeps_pushInEntry _).held_of_ok h ht) _) fun _ t _ =>
    runsOn_bind (runsOn_of_ok (run_modS _ t)) fun _ t _ => runsOn_of_ok (run_modS _ t)

/-- A sequence that ran through ran through both its parts. -/
theorem ok_of_bind {α β : Type} {x : M α} {f : α → M β} {s u : State} {b : β} (h : (x >>= f).run s = .ok b u) :
    ∃ a t, x.run s = .ok a t ∧ (f a).run t = .ok b u := by
  rw [run_bind] at h
  cases e : x.run s with
  | ok a t => rw [e] at h; exact ⟨a, t, rfl, h⟩
  | error r t => rw [e] at h; cases h

theorem enterException_idle {s t : State} {e : Exc} (h : (enterException e).run s = .ok () t) :
    t.cur = Scratch.empty := by
  obtain ⟨_, _, _, h⟩ := ok_of_bind h
  obtain ⟨_, _, _, h⟩ := ok_of_bind h
  obtain ⟨_, _, _, h⟩ := ok_of_bind h
  obtain ⟨_, _, _, h⟩ := ok_of_bind h
  obtain ⟨_, _, _, h⟩ := ok_of_bind h
  cases h
  rfl

theorem enterException_inv {s t : State} {e : Exc} (h : s.Inv) (ht : outcome (enterException e) s = .next t) :
    t.Inv := by
  rcases outcome_next ht with hok | hended
  · exact ((keeps_enterException e).held_of_ok h.held hok).inv (enterException_idle hok)
  · exact absurd hended (enterException_runsOn h.held e t)

/-! ### Reset -/

theorem deviceReset_readW (s : State) (r : RegNum) : (deviceReset s).readW r = State.reset.readW r := rfl
theorem deviceReset_initialised (s : State) (r : RegNum) :
    (deviceReset s).initialised r = State.reset.initialised r := rfl
theorem deviceReset_pendingTraps (s : State) : (deviceReset s).pendingTraps = State.reset.pendingTraps := rfl

theorem reset_readW : ∀ r : RegNum, State.reset.readW r = if r = 15 then 0x0800 else 0 := by decide

theorem reset_initialised : ∀ r : RegNum, r ≠ 15 → State.reset.initialised r = false := by decide

theorem reset_no_traps (t : Trap) : State.reset.pendingTraps.has t = false := by
  cases t with
  | other n => revert n; decide
  | _ => rfl

theorem reset_atReset : State.reset.AtReset where
  pc := rfl
  wInit := reset_initialised
  stackLimit := ⟨rfl, rfl⟩
  status := ⟨rfl, rfl, rfl, rfl, rfl, rfl, rfl⟩
  corcon := by decide
  pages := ⟨rfl, rfl⟩
  fixedBits := by decide
  modulo := ⟨rfl, rfl⟩
  disicnt := rfl
  edtPending := rfl
  div := rfl
  traps := reset_no_traps
  intcon1 := ⟨rfl, rfl, rfl, rfl, rfl, rfl, rfl, rfl, rfl, rfl⟩

/-- The bits of SR that depend on RESET_SR_LOW6 are 0 where it is not `table` (R38, D8). -/
theorem deviceReset_sr_low {s : State} (h : s.dev.resetSrLow6Table = false) :
    (deviceReset s).sr.ipl = 0 ∧ (deviceReset s).sr.ra = false := by
  simp [deviceReset, h]

theorem deviceReset_fixedBits (s : State) :
    evenBits (deviceReset s).dostart = true ∧ evenBits (deviceReset s).doend = true ∧
    evenBits (deviceReset s).xmodsrt = true ∧ evenBits (deviceReset s).ymodsrt = true ∧
    (deviceReset s).xmodend.getLsbD 0 = true ∧ (deviceReset s).ymodend.getLsbD 0 = true :=
  ⟨evenBits_evenPc _, evenBits_evenPc _, evenBits_evenWord _, evenBits_evenWord _,
    by simp [deviceReset], by simp [deviceReset]⟩

theorem deviceReset_atReset {s : State} (h : s.dev.resetSrLow6Table = false) : (deviceReset s).AtReset where
  pc := deviceReset_pc s
  wInit r hr := (deviceReset_initialised s r).trans (reset_initialised r hr)
  stackLimit := ⟨deviceReset_splim s, rfl⟩
  status := ⟨rfl, rfl, rfl, rfl, rfl, deviceReset_sr_low h⟩
  corcon := reset_atReset.corcon
  pages := ⟨rfl, rfl⟩
  fixedBits := deviceReset_fixedBits s
  modulo := ⟨deviceReset_modcon s, deviceReset_xbrev s⟩
  disicnt := rfl
  edtPending := deviceReset_edtPending s
  div := deviceReset_div s
  traps t := by rw [deviceReset_pendingTraps, reset_no_traps]
  intcon1 := reset_atReset.intcon1

theorem reset_inv : State.reset.Inv where
  w15 := by decide
  splim := by decide
  pc := by decide
  loopRegs := by decide
  modcon := by decide
  xbrev := by decide
  modulo := by decide
  dataForm := reset_memory_wf.1
  dataRange := by decide
  progForm := reset_memory_wf.2
  div _ e := nomatch e
  edt hn := absurd rfl hn
  idle := rfl

/-! ### Operands that cannot be reached -/

theorem outcome_fault {m : M Unit} {s t : State} {f : Fault} (h : m.run s = .error (.fault f) t) :
    outcome m s = .fault f := by simp [outcome, h]

theorem outcome_refused {m : M Unit} {s t : State} {r : Refusal} (h : m.run s = .error (.refused r) t) :
    outcome m s = .refused r := by simp [outcome, h]

/-- An operation that stops ends a sequence that begins with it. -/
theorem run_bind_error {α β : Type} {x : M α} {f : α → M β} {s t : State} {e : Stop} (h : x.run s = .error e t) :
    (x >>= f).run s = .error e t := by rw [run_bind, h]

/-- The use of an uninitialised pointer resets the device (R27). -/
theorem ptr_uninitialised {s : State} {r : RegNum} (h : s.initialised r = false) :
    (ptr r).run s = .error .ended (deviceReset s) := by
  show (if s.initialised r then _ else _) = _
  rw [h]
  rfl

theorem operandAddress_uninitialised {s : State} {b : RegNum} {step : Word} {o : Operand}
    (h : s.initialised o.reg = false) :
    (operandAddress b step o).run s = .error .ended (deviceReset s) :=
  run_bind_error (ptr_uninitialised h)

/-- A device Reset depends on program memory, the device and the free values alone (R432, log 7). -/
theorem deviceReset_congr {s t : State} (hp : t.prog = s.prog) (hd : t.dev = s.dev) (hf : t.free = s.free) :
    deviceReset t = deviceReset s := by
  simp only [deviceReset, hp, hd, hf]

/-- A source operand marks the registers of its address, then forms the address from the marked state (R570, R590). -/
theorem sourceAddress_eq {s : State} {b : RegNum} {o : Operand} (step : Word)
    (hl : (o.usesStack b && s.last.splim) = false) :
    (sourceAddress b step o).run s = (operandAddress b step o).run (s.sourceMarked b o) := by
  have h1 : (o.reg == 15 && s.last.splim) = false := by
    cases hs : s.last.splim <;> simp_all [Operand.usesStack]
  unfold sourceAddress State.sourceMarked
  rw [run_bind_ok (sourceThrough_ok h1)]
  by_cases hm : o.mode = .offset
  · have h2 : (b == 15 && (s.markSrcEa o.reg).last.splim) = false := by
      cases hs : s.last.splim <;> simp_all [Operand.usesStack]
    rw [if_pos hm, if_pos hm, run_bind_ok (sourceThrough_ok h2)]
  · rw [if_neg hm, if_neg hm]

theorem sourceMarked_kept (s : State) (b : RegNum) (o : Operand) :
    deviceReset (s.sourceMarked b o) = deviceReset s ∧
      ∀ r, (s.sourceMarked b o).initialised r = s.initialised r := by
  unfold State.sourceMarked
  split <;> exact ⟨rfl, fun _ => rfl⟩

theorem sourceAddress_uninitialised {s : State} {b : RegNum} {o : Operand} (step : Word)
    (hl : (o.usesStack b && s.last.splim) = false) (hi : s.initialised o.reg = false) :
    (sourceAddress b step o).run s = .error .ended (deviceReset s) := by
  obtain ⟨hr, hk⟩ := sourceMarked_kept s b o
  rw [sourceAddress_eq step hl, operandAddress_uninitialised ((hk _).trans hi), hr]

theorem notMisaligned {byte : Bool} {a : Word} (h : byte = true ∨ a.getLsbD 0 = false) :
    (!byte && a.getLsbD 0) = false := by
  rcases h with h | h <;> rw [h] <;> simp

/-- An access of this size to this address finds no CPU register, no PSV window and no RAM (R107, R114). -/
structure State.Unreachable (s : State) (byte : Bool) (a : Word) : Prop where
  aligned : byte = true ∨ a.getLsbD 0 = false
  noSfr : sfrAt s.dev a = none
  noWindow : (s.corcon.psv && a.getLsbD 15) = false
  noRam : s.inRam a (if byte then 1 else 2) = false

theorem SameRest.unreachable {s t : State} {byte : Bool} {a : Word} (h : SameRest s t) (hu : s.Unreachable byte a) :
    t.Unreachable byte a where
  aligned := hu.aligned
  noSfr := by rw [h.dev]; exact hu.noSfr
  noWindow := by rw [h.corcon]; exact hu.noWindow
  noRam := by unfold State.inRam; rw [h.dev]; exact hu.noRam

theorem memRead_unreachable {s : State} {byte : Bool} {a : Word} (h : s.Unreachable byte a) :
    (memRead byte a).run s = .error (noMemory s.dev a) s := by
  unfold memRead
  simp only [notMisaligned h.aligned, run_bind, run_addressErrorIf_false, run_getS, h.noSfr, h.noWindow, h.noRam,
    Bool.false_eq_true, if_false, Bool.not_false, run_stopIf_true]

theorem memWrite_unreachable {s : State} {byte : Bool} {a : Word} (h : s.Unreachable byte a) (v : Word) :
    (memWrite byte a v).run s = .error (noMemory s.dev a) s := by
  unfold memWrite
  simp only [notMisaligned h.aligned, run_bind, run_addressErrorIf_false, run_getS, h.noSfr, h.noWindow, h.noRam,
    run_stopIf_false, Bool.not_false, run_stopIf_true]

theorem memWrite_psvWindow {s : State} {byte : Bool} {a : Word} (ha : byte = true ∨ a.getLsbD 0 = false)
    (hn : sfrAt s.dev a = none) (hp : (s.corcon.psv && a.getLsbD 15) = true) (v : Word) :
    (memWrite byte a v).run s = .error (.fault .psvWrite) s := by
  unfold memWrite
  simp only [notMisaligned ha, run_bind, run_addressErrorIf_false, run_getS, hn, hp, run_stopIf_true]

/-- A word access at an odd address stops as the alignment check does (R109). -/
theorem memRead_misaligned {s t : State} {a : Word} {e : Stop} (ha : a.getLsbD 0 = true)
    (h : (addressErrorIf true).run s = .error e t) : (memRead false a).run s = .error e t := by
  unfold memRead
  rw [ha]
  exact run_bind_error h

theorem memWrite_misaligned {s t : State} {a : Word} {e : Stop} (ha : a.getLsbD 0 = true)
    (h : (addressErrorIf true).run s = .error e t) (v : Word) : (memWrite false a v).run s = .error e t := by
  unfold memWrite
  rw [ha]
  exact run_bind_error h

theorem noMemory_fault {d : Device} {a : Word} (h : d.externalBus = false ∨ a.toNat < ramStart) :
    noMemory d a = .fault .unimplementedData := by
  have hc : (d.externalBus && decide (ramStart ≤ a.toNat)) = false := by
    rcases h with h | h
    · rw [h, Bool.false_and]
    · rw [decide_eq_false (Nat.not_le.2 h), Bool.and_false]
  rw [noMemory, hc]
  rfl

theorem noMemory_refused {d : Device} {a : Word} (hd : d.externalBus = true) (ha : ramStart ≤ a.toNat) :
    noMemory d a = .refused .externalBus := by
  have hc : (d.externalBus && decide (ramStart ≤ a.toNat)) = true := by rw [hd, decide_eq_true ha, Bool.and_self]
  rw [noMemory, if_pos hc]

section
variable {s : State} {b : RegNum} {byte : Bool} {o : Operand}

/-- An indirect source operand that can be addressed is read from memory (R200). -/
theorem readOperand_addressable (hd : o.isDirect = false) (hl : (o.usesStack b && s.last.splim) = false)
    (ha : s.addressable b (stepOf byte) o = true) :
    (readOperand b byte o).run s =
      (memRead byte (s.effective b (stepOf byte) o)).run (s.beforeSourceRead b (stepOf byte) o) := by
  rw [readOperand, hd, if_neg Bool.false_ne_true, run_bind_ok (sourceAddress_ready ha hl)]

theorem readOperand_uninitialised (hd : o.isDirect = false) (hl : (o.usesStack b && s.last.splim) = false)
    (hi : s.initialised o.reg = false) : (readOperand b byte o).run s = .error .ended (deviceReset s) := by
  rw [readOperand, hd, if_neg Bool.false_ne_true, run_bind_error (sourceAddress_uninitialised _ hl hi)]

/-- An indirect destination operand that can be addressed is written to memory (R200). -/
theorem writeOperand_addressable (hd : o.isDirect = false) (ha : s.addressable b (stepOf byte) o = true) (v : Word) :
    (writeOperand b byte o v).run s =
      (memWrite byte (s.effective b (stepOf byte) o) v).run (s.modified (stepOf byte) o) := by
  rw [writeOperand, hd, if_neg Bool.false_ne_true, run_bind_ok (operandAddress_ready ha)]

theorem writeOperand_uninitialised (hd : o.isDirect = false) (hi : s.initialised o.reg = false) (v : Word) :
    (writeOperand b byte o v).run s = .error .ended (deviceReset s) := by
  rw [writeOperand, hd, if_neg Bool.false_ne_true, run_bind_error (operandAddress_uninitialised hi)]

/-- Reading a source operand uses no free value. -/
@[simp] theorem afterSource_free : (s.afterSource b byte o).free = s.free := by
  unfold State.afterSource State.afterRead State.beforeSourceRead State.modified State.sourceMarked
  split
  · rfl
  · split <;> split <;> simp

theorem deviceReset_afterSource : deviceReset (s.afterSource b byte o) = deviceReset s :=
  deviceReset_congr (afterSource_sameRest s b byte o).prog (afterSource_sameRest s b byte o).dev afterSource_free

end

/-! ### MOV where an operand stops it -/

section
variable {s u t : State} {b : RegNum} {byte : Bool} {dst src : Operand} {e : Stop}

/-- MOV answers what the read of its source operand stops with (R210). -/
theorem exec_mov_source_stops (hc : conflicts src dst = false) (h : (readOperand b byte src).run s = .error e t) :
    exec (.mov b byte dst src) s = outcome (stopWith e) t := by
  show execMov b byte dst src s = _
  unfold execMov outcome refuseConflict
  rw [hc, run_bind_ok (run_stopIf_false _ s), run_bind_error h, run_stopWith]

/-- MOV answers what the write of its destination operand stops with (R210). -/
theorem exec_mov_dest_stops (hc : conflicts src dst = false) (hs : s.sourceReady b byte src = true)
    (h : (writeOperand b byte dst (s.sourceValue b byte src)).run (s.afterSource b byte src) = .error e t) :
    exec (.mov b byte dst src) s = outcome (stopWith e) t := by
  show execMov b byte dst src s = _
  unfold execMov outcome refuseConflict
  rw [hc, run_bind_ok (run_stopIf_false _ s), run_bind_ok (readOperand_ready hs), h, run_stopWith]

/-- The two ways of a device with a word access at an odd address, as an instruction that stops there answers them
(R109, R504). -/
theorem outcome_misaligned {o : Host.Outcome State Fault Refusal}
    (h : ∀ e t, (addressErrorIf true).run s = .error e t → o = outcome (stopWith e) t) :
    (s.dev.misalignedTraps = false → o = .fault .addressError) ∧
      (s.dev.misalignedTraps = true → o = .next (s.pend .address)) :=
  ⟨fun hm => h _ _ (addressErrorIf_fault hm), fun hm => h _ _ (addressErrorIf_raise hm)⟩

/-- The two ways of a device with an address that nothing implements, as an instruction that stops there answers them
(R105, R107). -/
theorem outcome_noMemory (d : Device) (a : Word) (t : State) :
    (d.externalBus = false ∨ a.toNat < 0x0800 →
      outcome (stopWith (noMemory d a)) t = .fault .unimplementedData) ∧
    (d.externalBus = true → 0x0800 ≤ a.toNat → outcome (stopWith (noMemory d a)) t = .refused .externalBus) :=
  ⟨fun h => by rw [noMemory_fault h]; rfl, fun h h8 => by rw [noMemory_refused h h8]; rfl⟩

theorem modified_sameRest (s : State) (step : Word) (o : Operand) : SameRest s (s.modified step o) :=
  movePointer_sameRest s _ _

/-- What the destination's memory write finds of the state that MOV began with. -/
theorem beforeDestWrite_sameRest (s : State) (b : RegNum) (byte : Bool) (dst src : Operand) :
    SameRest s ((s.afterSource b byte src).modified (stepOf byte) dst) :=
  (afterSource_sameRest s b byte src).trans (modified_sameRest _ _ dst)

end

/-! ### SR and CORCON as words -/

/-- The single bits of SR as read (R35). -/
theorem srWord_bits (s : State) :
    s.srWord.getLsbD 15 = s.sr.oa ∧ s.srWord.getLsbD 14 = s.sr.ob ∧ s.srWord.getLsbD 13 = s.sr.sa ∧
    s.srWord.getLsbD 12 = s.sr.sb ∧ s.srWord.getLsbD 11 = (s.sr.oa || s.sr.ob) ∧
    s.srWord.getLsbD 10 = (s.sr.sa || s.sr.sb) ∧ s.srWord.getLsbD 9 = s.da ∧ s.srWord.getLsbD 8 = s.sr.dc ∧
    s.srWord.getLsbD 4 = s.sr.ra ∧ s.srWord.getLsbD 3 = s.sr.n ∧ s.srWord.getLsbD 2 = s.sr.ov ∧
    s.srWord.getLsbD 1 = s.sr.z ∧ s.srWord.getLsbD 0 = s.sr.c := by
  simp only [State.srWord, State.srh, State.srl, BitVec.getLsbD_append]
  simp

theorem srWord_ipl (s : State) : s.srWord.extractLsb' 5 3 = s.sr.ipl := by
  apply BitVec.eq_of_getLsbD_eq
  intro i hi
  have h8 : 5 + i < 8 := by omega
  simp only [State.srWord, State.srl, BitVec.getLsbD_extractLsb', BitVec.getLsbD_append, hi, h8, if_true]
  simp

theorem da_iff (s : State) : s.da = true ↔ s.corcon.dl ≠ 0 := bne_iff_ne

namespace CoreControl

/-- The single bits of CORCON as read (R40, R41). -/
theorem word_bits (c : CoreControl) :
    c.word.getLsbD 12 = c.us ∧ c.word.getLsbD 11 = false ∧ c.word.getLsbD 7 = c.sata ∧ c.word.getLsbD 6 = c.satb ∧
    c.word.getLsbD 5 = c.satdw ∧ c.word.getLsbD 4 = c.accsat ∧ c.word.getLsbD 3 = c.ipl3 ∧ c.word.getLsbD 2 = c.psv ∧
    c.word.getLsbD 1 = c.rnd ∧ c.word.getLsbD 0 = c.ifm := by
  simp only [word, BitVec.getLsbD_append]
  simp

theorem word_dl (c : CoreControl) : c.word.extractLsb' 8 3 = c.dl := by
  apply BitVec.eq_of_getLsbD_eq
  intro i hi
  simp only [word, BitVec.getLsbD_extractLsb', BitVec.getLsbD_append, hi]
  simp +arith [hi]

theorem word_unimplemented (c : CoreControl) : c.word.extractLsb' 13 3 = 0 := by
  apply BitVec.eq_of_getLsbD_eq
  intro i hi
  simp only [word, BitVec.getLsbD_extractLsb', BitVec.getLsbD_append, hi]
  simp +arith

theorem word_written {c : CoreControl} {v : Word} (hdl : v.extractLsb' 8 3 = c.dl) (hipl : v.getLsbD 3 = c.ipl3) :
    (c.written v).word = v &&& 0x17FF := by
  apply BitVec.eq_of_getLsbD_eq
  intro i hi
  rw [BitVec.getLsbD_and]
  simp only [word, written, BitVec.getLsbD_append, ← hdl, ← hipl]
  interval_cases i <;> simp

end CoreControl

/-! ### Software writes of SR and CORCON -/

/-- MOV to the address of a CPU register applies the register's write rule (R111, R212). -/
theorem exec_movToFile_sfr {s : State} {f : BitVec 16} {x : Sfr} (r : RegNum) (hf : f.getLsbD 0 = false)
    (hx : sfrAt s.dev f = some x) : exec (.movToFile f r) s = outcome (writeSfr x (s.readW r) true) s := by
  show execMovToFile f r s = _
  unfold execMovToFile outcome
  rw [run_bind_ok (run_readW r s), memWrite_sfr hf hx]

/-- The state after a software write of SR (R37). -/
def State.srWritten (s : State) (v : Word) : State :=
  { s with
    sr := s.sr.written s.intcon1.nstdis v
    cur := { s.cur with ipl := s.cur.ipl || (s.sr.written s.intcon1.nstdis v).ipl != s.sr.ipl } }

theorem run_writeSr (v : Word) (s : State) : (writeSr v).run s = .ok () (s.srWritten v) := rfl

theorem srWritten_sameRest (s : State) (v : Word) : SameRest s (s.srWritten v) := by
  constructor <;> simp [State.srWritten]

theorem srWritten_iplChanged (s : State) (v : Word) :
    (s.srWritten v).cur.ipl = true ↔ s.cur.ipl = true ∨ (s.srWritten v).sr.ipl ≠ s.sr.ipl := by
  simp [State.srWritten]

/-- The state after a software write of CORCON that leaves DL and IPL3 as they are (R41, R474). -/
def State.corconWritten (s : State) (v : Word) : State :=
  { s with
    corcon := s.corcon.written v
    edtPending := if v.getLsbD 11 && s.da then some 0 else s.edtPending
    cur := { s.cur with edt := s.cur.edt || (v.getLsbD 11 && s.da) } }

section
variable {s : State} {v : Word}

theorem run_writeCorcon (hdl : v.extractLsb' 8 3 = s.corcon.dl) (hipl : v.getLsbD 3 = s.corcon.ipl3) :
    (writeCorcon v).run s = .ok () (s.corconWritten v) := by
  have hstop : (v.extractLsb' 8 3 != s.corcon.dl || v.getLsbD 3 != s.corcon.ipl3) = false := by
    rw [hdl, hipl, bne_self_eq_false, bne_self_eq_false, Bool.or_false]
  unfold writeCorcon
  rw [run_bind_ok (run_getS s), hstop, run_bind_ok (run_stopIf_false _ s), run_bind_ok (run_modS _ s), run_ite]
  by_cases hedt : (v.getLsbD 11 && s.da) = true
  · rw [if_pos hedt, State.corconWritten, if_pos hedt, hedt, Bool.or_true]
    rfl
  · rw [if_neg hedt, State.corconWritten, if_neg hedt, Bool.eq_false_iff.2 hedt, Bool.or_false]
    rfl

theorem writeCorcon_refused (h : v.extractLsb' 8 3 ≠ s.corcon.dl ∨ v.getLsbD 3 ≠ s.corcon.ipl3) :
    (writeCorcon v).run s = .error (.refused .corconStatus) s := by
  have hstop : (v.extractLsb' 8 3 != s.corcon.dl || v.getLsbD 3 != s.corcon.ipl3) = true := by
    rw [Bool.or_eq_true, bne_iff_ne, bne_iff_ne]
    exact h
  unfold writeCorcon
  rw [run_bind_ok (run_getS s), hstop]
  exact run_bind_error (run_stopIf_true _ s)

end

theorem corconWritten_sameRest (s : State) (v : Word) :
    SameRest s { s.corconWritten v with corcon := s.corcon, edtPending := s.edtPending } := by
  constructor <;> simp [State.corconWritten]

theorem corconWritten_edt (s : State) (v : Word) :
    (s.corconWritten v).cur.edt = true ↔ s.cur.edt = true ∨ v.getLsbD 11 = true ∧ s.da = true := by
  simp [State.corconWritten]

end Sys2Proof.Machine

namespace Sys2Proof.Proofs

open Sys2Proof.Machine

/-- Settles O9, by the three kinds of step of R14. An instruction keeps `State.Held` while it is under way, and the end
of its step closes the record of it. -/
theorem invKept : Obligations.InvKept := by
  intro s t h ht
  unfold step at ht
  split at ht
  · cases ht
    exact (deviceReset_held h.held).inv_idle
  · split at ht
    · exact enterException_inv h ht
    · exact stepInstr_inv h ht

/-- Settles O6: a device Reset gives the W registers the values of `State.reset`. -/
theorem resetWorkingRegisters : Obligations.ResetWorkingRegisters := fun s r =>
  ⟨reset_readW r, (deviceReset_readW s r).trans (reset_readW r)⟩

/-- Settles O7: only IPL and RA depend on RESET_SR_LOW6, and the free values leave the fixed bits alone. -/
theorem resetOtherState : Obligations.ResetOtherState :=
  ⟨reset_atReset, rfl, rfl, by decide, fun _ h => ⟨deviceReset_atReset h, rfl, rfl⟩⟩

/-- Settles O8, clause by clause on the concrete state. -/
theorem invAtReset : Obligations.InvAtReset := reset_inv

/-- Settles O11. A source that cannot be read and a destination that cannot be written each stop with one error, and
MOV answers that error. -/
theorem operandFaults : Obligations.OperandFaults := by
  refine ⟨fun s b byte dst src ea hc hd hl hea => ?source, fun s u b byte dst src ea hc hs hu hd hea => ?destination⟩
  case source =>
    subst hea
    have hrest := beforeSourceRead_sameRest s b (stepOf byte) src
    refine ⟨fun hi => ?_, fun ha hb ho => ?_, fun ha hal hn hp hr => ?_⟩
    · exact exec_mov_source_stops hc (readOperand_uninitialised hd hl hi)
    · subst hb
      rw [← hrest.dev]
      exact outcome_misaligned fun e t h =>
        exec_mov_source_stops hc ((readOperand_addressable hd hl ha).trans (memRead_misaligned ho h))
    · have hrun := memRead_unreachable (hrest.unreachable ⟨hal, hn, hp, hr⟩)
      rw [← hrest.dev, exec_mov_source_stops hc ((readOperand_addressable hd hl ha).trans hrun)]
      exact outcome_noMemory _ _ _
  case destination =>
    subst hu hea
    have hrest := beforeDestWrite_sameRest s b byte dst src
    refine ⟨fun hi => ?_, fun ha hb ho => ?_, fun ha hal hn => ⟨fun hp => ?_, fun hp hr => ?_⟩⟩
    · rw [← deviceReset_afterSource (b := b) (byte := byte) (o := src)]
      exact exec_mov_dest_stops hc hs (writeOperand_uninitialised hd hi _)
    · subst hb
      rw [← hrest.dev]
      exact outcome_misaligned fun e t h =>
        exec_mov_dest_stops hc hs ((writeOperand_addressable hd ha _).trans (memWrite_misaligned ho h _))
    · have hrun := memWrite_psvWindow hal (hrest.dev ▸ hn) (hrest.corcon ▸ hp) (s.sourceValue b byte src)
      exact exec_mov_dest_stops hc hs ((writeOperand_addressable hd ha _).trans hrun)
    · have hrun := memWrite_unreachable (hrest.unreachable ⟨hal, hn, hp, hr⟩) (s.sourceValue b byte src)
      rw [← hrest.dev, exec_mov_dest_stops hc hs ((writeOperand_addressable hd ha _).trans hrun)]
      exact outcome_noMemory _ _ _

/-- Settles O18: the word bit by bit, and the one next state that the write rule of SR gives. -/
theorem statusWrite : Obligations.StatusWrite := by
  refine ⟨fun s => ?word, fun s f r hf hx => ?write⟩
  case word =>
    obtain ⟨oa, ob, sa, sb, oab, sab, da, dc, ra, n, ov, z, c⟩ := srWord_bits s
    exact ⟨rfl, oa, ob, sa, sb, oab, sab, by rw [da, da_iff], dc, srWord_ipl s, ra, n, ov, z, c⟩
  case write =>
    have hw := (exec_movToFile_sfr r hf hx).trans (outcome_ok (run_writeSr _ s))
    exact ⟨_, hw, rfl, rfl, rfl, rfl, rfl, rfl, rfl, rfl, rfl, rfl, rfl, rfl, srWritten_iplChanged s _,
      RegsKept.refl s [], srWritten_sameRest s _, rfl⟩

/-- Settles O19: the word bit by bit, and the two ways of the write rule of CORCON. -/
theorem coreControlWrite : Obligations.CoreControlWrite := by
  refine ⟨fun s => ?word, fun s f r hf hx => ⟨fun hdl hipl => ?write, fun h => ?refused⟩⟩
  case word =>
    obtain ⟨us, edt, sata, satb, satdw, accsat, ipl3, psv, rnd, ifm⟩ := s.corcon.word_bits
    exact ⟨rfl, s.corcon.word_unimplemented, us, edt, s.corcon.word_dl, sata, satb, satdw, accsat, ipl3, psv, rnd, ifm⟩
  case write =>
    have hw := (exec_movToFile_sfr r hf hx).trans (outcome_ok (run_writeCorcon hdl hipl))
    exact ⟨_, hw, CoreControl.word_written hdl hipl, rfl, corconWritten_edt s _, corconWritten_sameRest s _,
      RegsKept.refl s [], rfl, rfl⟩
  case refused =>
    exact (exec_movToFile_sfr r hf hx).trans (outcome_refused (writeCorcon_refused h))

end Sys2Proof.Proofs
end

section
/-! Family 20_memory. The program words that a load places, writes to the CPU registers through data space, and the
PSV window. -/

namespace Sys2Proof.Machine

/-! ### Program memory -/

section
variable {s : State} {a b : PcAddr}

/-- A program word reads as it was stored (R120, log 3). -/
theorem progWord_setProgWord_same (h : s.prog.wf = true) (a : PcAddr) (w : ProgWord) :
    (s.setProgWord a w).progWord a = w := by
  have h0 := Memory.wf_write h (2 * a.toNat) (field w 0 8)
  have h1 := Memory.wf_write h0 (2 * a.toNat + 1) (field w 8 8)
  simp only [State.progWord, State.setProgWord]
  rw [Memory.read_write_same h1, Memory.read_write_other _ (by omega), Memory.read_write_other _ (by omega),
    Memory.read_write_same h, Memory.read_write_other _ (by omega), Memory.read_write_same h0, wordOfBytes_fields]

/-- A stored program word leaves the words beside it as they read. -/
theorem progWord_setProgWord_other (h : a.toNat + 2 ≤ b.toNat ∨ b.toNat + 2 ≤ a.toNat) (w : ProgWord) :
    (s.setProgWord a w).progWord b = s.progWord b := by
  have hkeep : ∀ k, 2 * b.toNat ≤ k → k ≤ 2 * b.toNat + 2 → (s.setProgWord a w).prog.read k = s.prog.read k := by
    intro k hlo hhi
    simp only [State.setProgWord]
    rw [Memory.read_write_other _ (by omega), Memory.read_write_other _ (by omega),
      Memory.read_write_other _ (by omega)]
  simp only [State.progWord]
  rw [hkeep _ (by omega) (by omega), hkeep _ (by omega) (by omega), hkeep _ (by omega) (by omega)]

end

/-- The word after a program word does not overlap it, not even where the address wraps (R30). -/
theorem pcAddr_add_two_apart (a : PcAddr) : (a + 2).toNat + 2 ≤ a.toNat ∨ a.toNat + 2 ≤ (a + 2).toNat := by
  bv_omega

/-- The two words that a load places at the pc are the bytes of the instruction (log 3). -/
theorem bytesAt_withFetchWord {s : State} (h : s.prog.wf = true) (nbits w : Nat) :
    (s.withFetchWord nbits w).bytesAt s.pc = tableBytes nbits w := by
  rw [State.bytesAt, State.withFetchWord, progWord_setProgWord_same (setProgWord_wf h _ _),
    progWord_setProgWord_other (pcAddr_add_two_apart s.pc), progWord_setProgWord_same h]
  rfl

theorem decode_of_decodeTableWord {nbits w : Nat} {i : Instr} (h : decodeTableWord nbits w = some i) :
    ∃ rest, decode (tableBytes nbits w) = .ok (i, rest) := by
  unfold decodeTableWord at h
  split at h
  case h_1 j rest hd =>
    cases h
    exact ⟨rest, hd⟩
  case h_2 => cases h

theorem words_le_two (i : Instr) : i.words ≤ 2 := by
  unfold Instr.words
  split <;> omega

/-! ### MOV with ready operands -/

/-- MOV moves the value of its source operand to its destination operand (R210). -/
theorem exec_mov_ready {s : State} {b : RegNum} {byte : Bool} {dst src : Operand} (hc : conflicts src dst = false)
    (hs : s.sourceReady b byte src = true) (hd : (s.afterSource b byte src).destReady b byte dst = true) :
    exec (.mov b byte dst src) s =
      .next ((s.afterSource b byte src).afterDest b byte dst (s.sourceValue b byte src)) := by
  show execMov b byte dst src s = _
  unfold execMov refuseConflict
  refine outcome_ok ?_
  rw [hc, run_bind_ok (run_stopIf_false _ s), run_bind_ok (readOperand_ready hs), writeOperand_ready hd]

/-- A pointer other than W15 takes no part in the stack check (R200, R503). -/
theorem usesStack_eq_false {o : Operand} (h : o.reg ≠ 15) : o.usesStack 0 = false := by
  rw [Operand.usesStack, beq_eq_false_iff_ne.2 h, show ((0 : RegNum) == 15) = false from rfl, Bool.and_false]
  rfl

/-! ### The PSV window -/

/-- The PSV window lies in the upper half of data space, above every CPU register (R105, R121). -/
theorem sfrAt_upperHalf (d : Device) {a : Word} (h : a.getLsbD 15 = true) : sfrAt d a = none := by
  have hmsb : 2 ^ 15 ≤ a.toNat := BitVec.toNat_ge_of_msb_true ((BitVec.msb_eq_getLsbD_last a).trans h)
  exact sfrAt_ram d (by unfold ramStart; omega)

/-- A byte as a value of the operand size has itself as its low byte. -/
@[simp] theorem extract_setWidth_byte (v : Byte) : (v.setWidth 16).extractLsb' 0 8 = v := by
  rw [BitVec.extractLsb'_setWidth_of_le (by decide), BitVec.extractLsb'_eq_self]

/-- The byte lanes of the low word of a program word (R108, R121). -/
theorem lane_progWord (a : Word) (w : ProgWord) :
    lane a (w.extractLsb' 0 16) = if a.getLsbD 0 then w.extractLsb' 8 8 else w.extractLsb' 0 8 := by
  unfold lane
  rw [BitVec.extractLsb'_extractLsb'_of_le (by decide), BitVec.extractLsb'_extractLsb'_of_le (by decide)]

section
variable {s : State} {byte : Bool} {a : Word} {n : RegNum}

/-- What a read through the PSV window gives (R110, R121). -/
theorem readable_psvWindow (hp : s.corcon.psv = true) (h15 : a.getLsbD 15 = true)
    (ha : byte = true ∨ a.getLsbD 0 = false) (htop : s.progImplemented (s.psvAddress a) = true) :
    s.readable byte a = true ∧
      s.readValue byte a = laneOrWord byte a ((s.progWord (s.psvAddress a)).extractLsb' 0 16) := by
  have hal : (byte || !a.getLsbD 0) = true := by rcases ha with h | h <;> rw [h] <;> simp
  simp only [State.readable, State.readValue, sfrAt_upperHalf s.dev h15, hp, h15, hal, htop, Bool.and_self, if_true,
    and_self]

/-- A pointer into the PSV window is a source operand that can be read, and its value (R200, R121). -/
theorem sourceReady_psvWindow (hp : s.corcon.psv = true) (hn : n ≠ 15) (hi : s.initialised n = true)
    (h15 : (s.readW n).getLsbD 15 = true) (ha : byte = true ∨ (s.readW n).getLsbD 0 = false)
    (htop : s.progImplemented (s.psvAddress (s.readW n)) = true) :
    s.sourceReady 0 byte ⟨.indirect, n⟩ = true ∧
      s.sourceValue 0 byte ⟨.indirect, n⟩ =
        laneOrWord byte (s.readW n) ((s.progWord (s.psvAddress (s.readW n))).extractLsb' 0 16) := by
  obtain ⟨hready, hvalue⟩ := readable_psvWindow (s := s.markSrcEa n) hp h15 ha htop
  have hstack : (Operand.mk .indirect n).usesStack 0 = false := usesStack_eq_false hn
  refine ⟨?_, hvalue⟩
  show (false || (s.initialised n && !(_ && _) && !(_ && _) && (s.markSrcEa n).readable byte (s.readW n))) = true
  rw [hstack, hi, hready]
  rfl

/-- A read into a register through a pointer that stays: the register, and what else is as it was (R200). -/
theorem exec_mov_indirect {d : RegNum} (hs : s.sourceReady 0 byte ⟨.indirect, n⟩ = true) :
    ∃ u : State, exec (.mov 0 byte ⟨.direct, d⟩ ⟨.indirect, n⟩) s =
        .next (u.putReg byte d (s.sourceValue 0 byte ⟨.indirect, n⟩)) ∧
      u.readW d = s.readW d ∧
      ∀ v, RegsKept s (u.putReg byte d v) [d] ∧ (u.putReg byte d v).data = s.data := by
  have hkept : RegsKept s (s.afterSource 0 byte ⟨.indirect, n⟩) [] := afterSource_regsKept s 0 byte _
  refine ⟨_, exec_mov_ready rfl hs rfl, (hkept d List.not_mem_nil).1, fun v => ⟨?_, ?_⟩⟩
  · exact hkept.trans (putReg_regsKept _ byte d v)
  · rw [putReg_data, afterSource_data]

end

/-! ### The words of the CPU registers -/

/-- A field of a field. -/
theorem extract_extract {n m lo k len : Nat} (x : BitVec n) (h : k + len ≤ m) :
    (x.extractLsb' lo m).extractLsb' k len = x.extractLsb' (lo + k) len := by
  apply BitVec.eq_of_getLsbD_eq
  intro i hi
  rw [BitVec.getLsbD_extractLsb', BitVec.getLsbD_extractLsb', BitVec.getLsbD_extractLsb',
    decide_eq_true (show k + i < m by omega), Bool.true_and, Nat.add_assoc]

/-- The low bits of a word as a word: what a register of fewer bits reads as (R46 to R48, R56). -/
theorem setWidth_extract_low (v : Word) (k : Nat) :
    (v.extractLsb' 0 k).setWidth 16 = v &&& BitVec.ofNat 16 (2 ^ k - 1) := by
  apply BitVec.eq_of_getLsbD_eq
  intro i hi
  rw [BitVec.getLsbD_setWidth, BitVec.getLsbD_extractLsb', BitVec.getLsbD_and, BitVec.getLsbD_ofNat,
    Nat.testBit_two_pow_sub_one, Nat.zero_add, decide_eq_true hi, Bool.true_and, Bool.true_and, Bool.and_comm]

theorem pcLow_withPcLow (a : PcAddr) (v : Word) : pcLow (withPcLow a v) = evenWord v :=
  BitVec.extractLsb'_append_eq_right

theorem pcHigh_withPcLow (a : PcAddr) (v : Word) : pcHigh (withPcLow a v) = pcHigh a := by
  rw [pcHigh, withPcLow, BitVec.extractLsb'_append_eq_left, pcHigh]

theorem pcLow_withPcHigh (a : PcAddr) (v : Word) : pcLow (withPcHigh a v) = pcLow a :=
  BitVec.extractLsb'_append_eq_right

theorem pcHigh_withPcHigh (a : PcAddr) (v : Word) : pcHigh (withPcHigh a v) = v &&& 0x007F := by
  rw [pcHigh, withPcHigh, BitVec.extractLsb'_append_eq_left]
  exact setWidth_extract_low v 7

/-- MODCON without its two enable bits and its unimplemented bits (R52). -/
theorem modcon_and {v : Word} (h : (v.getLsbD 15 || v.getLsbD 14) = false) : v &&& 0xCFFF = v &&& 0x0FFF := by
  rw [Bool.or_eq_false_iff] at h
  apply BitVec.eq_of_getLsbD_eq
  intro i hi
  rw [BitVec.getLsbD_and, BitVec.getLsbD_and]
  interval_cases i <;> simp_all

/-- The parts of an accumulator after its low word is replaced (R58). -/
theorem acc_replaceLow (a : AccWord) (v : Word) :
    (a.extractLsb' 16 24 ++ v).extractLsb' 0 16 = v ∧
    (a.extractLsb' 16 24 ++ v).extractLsb' 16 16 = a.extractLsb' 16 16 ∧
    (a.extractLsb' 16 24 ++ v).extractLsb' 32 8 = a.extractLsb' 32 8 := by
  refine ⟨BitVec.extractLsb'_append_eq_right, ?_, ?_⟩ <;>
    rw [BitVec.extractLsb'_append_eq_of_le (by decide), extract_extract _ (by decide)]

/-- The parts of an accumulator after its middle word is replaced (R58). -/
theorem acc_replaceHigh (a : AccWord) (v : Word) :
    (a.extractLsb' 32 8 ++ v ++ a.extractLsb' 0 16).extractLsb' 0 16 = a.extractLsb' 0 16 ∧
    (a.extractLsb' 32 8 ++ v ++ a.extractLsb' 0 16).extractLsb' 16 16 = v ∧
    (a.extractLsb' 32 8 ++ v ++ a.extractLsb' 0 16).extractLsb' 32 8 = a.extractLsb' 32 8 := by
  refine ⟨BitVec.extractLsb'_append_eq_right, ?_, ?_⟩ <;> rw [BitVec.extractLsb'_append_eq_of_le (by decide)]
  · exact BitVec.extractLsb'_append_eq_right
  · exact BitVec.extractLsb'_append_eq_left

/-- The parts of an accumulator after its upper byte is replaced (R58). -/
theorem acc_replaceUpper (a : AccWord) (v : Word) :
    (v.extractLsb' 0 8 ++ a.extractLsb' 0 32).extractLsb' 0 16 = a.extractLsb' 0 16 ∧
    (v.extractLsb' 0 8 ++ a.extractLsb' 0 32).extractLsb' 16 16 = a.extractLsb' 16 16 ∧
    (v.extractLsb' 0 8 ++ a.extractLsb' 0 32).extractLsb' 32 8 = v.extractLsb' 0 8 := by
  refine ⟨?_, ?_, BitVec.extractLsb'_append_eq_left⟩ <;>
    rw [BitVec.extractLsb'_append_eq_of_add_le (by decide), extract_extract _ (by decide)]

theorem acc_setAcc (s : State) (a b : Acc) (z : AccWord) : (s.setAcc a z).acc b = if a = b then z else s.acc b := by
  cases a <;> cases b <;> rfl

/-- MODCON takes a word that leaves modulo addressing off (R52, R145). -/
theorem stored_modcon {v e : Word} (h : Sfr.modcon.stored v = some e) :
    (v.getLsbD 15 || v.getLsbD 14) = false ∧ v &&& 0x0FFF = e := by
  obtain ⟨hoff, he⟩ := Option.ite_none_left_eq_some.1 h
  exact ⟨Bool.eq_false_iff.2 hoff, Option.some.inj he⟩

/-- XBREV takes a word that leaves bit-reversed addressing off (R55, R145). -/
theorem stored_xbrev {v e : Word} (h : Sfr.xbrev.stored v = some e) : v.getLsbD 15 = false ∧ v = e := by
  obtain ⟨hoff, he⟩ := Option.ite_none_left_eq_some.1 h
  exact ⟨Bool.eq_false_iff.2 hoff, Option.some.inj he⟩

/-! ### The write of a CPU register -/

/-- The state in which a software write of `v` to the CPU register `x` ends; `word` tells a word write from one of a
byte lane (R111). -/
def State.sfrPut (s : State) (x : Sfr) (v : Word) (word : Bool) : State :=
  match (writeSfr x v word).run s with
  | .ok _ t => t
  | .error _ t => t

section
variable {s : State} {x y : Sfr} {v e : Word} {word : Bool}

theorem run_writeSfr_modcon (h : (v.getLsbD 15 || v.getLsbD 14) = false) :
    (writeSfr .modcon v word).run s = .ok () { s with modcon := v &&& 0x0FFF } := by
  unfold writeSfr
  rw [h, ← modcon_and h]
  rfl

theorem run_writeSfr_xbrev (h : v.getLsbD 15 = false) :
    (writeSfr .xbrev v word).run s = .ok () { s with xbrev := v } := by
  unfold writeSfr
  rw [h]
  rfl

theorem sfrPut_of_run {t : State} (h : (writeSfr x v word).run s = .ok () t) : s.sfrPut x v word = t := by
  rw [State.sfrPut, h]

/-- A write that the register takes does not stop (R111). -/
theorem run_writeSfr (h : x.stored v = some e) : (writeSfr x v word).run s = .ok () (s.sfrPut x v word) := by
  cases x with
  | pcl | pch | sr | corcon => cases h
  | modcon =>
    have hrun := run_writeSfr_modcon (s := s) (word := word) (stored_modcon h).1
    rw [hrun, sfrPut_of_run hrun]
  | xbrev =>
    have hrun := run_writeSfr_xbrev (s := s) (word := word) (stored_xbrev h).1
    rw [hrun, sfrPut_of_run hrun]
  | _ => rfl

/-- A W register written through its data address is initialised only where the device says so (R26, R112). -/
theorem sfrPut_w (n : RegNum) : s.sfrPut (.w n) v word =
    if word && s.dev.mmapWordWriteInitsW then ((s.setW n v).markWrote n).setInit n else (s.setW n v).markWrote n := rfl

theorem readW_sfrPut_w (n q : RegNum) :
    (s.sfrPut (.w n) v word).readW q = if n = q then (if n = 15 then evenWord v else v) else s.readW q := by
  rw [sfrPut_w]
  split <;> exact readW_setW s n q v

/-- A written register reads as its write rule says (R24, R45 to R58). -/
theorem sfrView_sfrPut_same (h : x.stored v = some e) : (s.sfrPut x v word).sfrView x = some e := by
  rw [← h]
  cases x with
  | pcl | pch | sr | corcon => cases h
  | w n => exact congrArg some ((readW_sfrPut_w n n).trans (if_pos rfl))
  | accL a =>
    obtain ⟨hlow, -, -⟩ := acc_replaceLow (s.acc a) v
    exact congrArg some ((congrArg _ ((acc_setAcc s a a _).trans (if_pos rfl))).trans hlow)
  | accH a =>
    obtain ⟨-, hhigh, -⟩ := acc_replaceHigh (s.acc a) v
    exact congrArg some ((congrArg _ ((acc_setAcc s a a _).trans (if_pos rfl))).trans hhigh)
  | accU a =>
    obtain ⟨-, -, hupper⟩ := acc_replaceUpper (s.acc a) v
    show some ((((s.setAcc a _).acc a).extractLsb' 32 8).signExtend 16) = _
    rw [acc_setAcc, if_pos rfl, hupper]
    rfl
  | tblpag | psvpag => exact congrArg some (setWidth_extract_low v 8)
  | rcount | disicnt => exact congrArg some (setWidth_extract_low v 14)
  | dostartl | doendl => exact congrArg some (pcLow_withPcLow _ v)
  | dostarth | doendh => exact congrArg some (pcHigh_withPcHigh _ v)
  | modcon =>
    obtain ⟨hoff, he⟩ := stored_modcon h
    rw [h, ← he, sfrPut_of_run (run_writeSfr_modcon hoff)]
    rfl
  | xbrev =>
    obtain ⟨hoff, he⟩ := stored_xbrev h
    rw [h, ← he, sfrPut_of_run (run_writeSfr_xbrev hoff)]
    rfl
  | splim | dcount | xmodsrt | xmodend | ymodsrt | ymodend => rfl

/-- The registers that a new accumulator value changes are its parts (R58, R62). -/
theorem sfrView_setAcc_other {a : Acc} {z : AccWord}
    (hl : y = .accL a → z.extractLsb' 0 16 = (s.acc a).extractLsb' 0 16)
    (hh : y = .accH a → z.extractLsb' 16 16 = (s.acc a).extractLsb' 16 16)
    (hu : y = .accU a → z.extractLsb' 32 8 = (s.acc a).extractLsb' 32 8) :
    (s.setAcc a z).sfrView y = s.sfrView y := by
  cases y with
  | accL b | accH b | accU b =>
    simp only [State.sfrView, acc_setAcc]
    split
    case isTrue hab =>
      subst hab
      simp_all
    case isFalse => rfl
  | _ => rfl

/-- A write of one CPU register leaves every other one as it reads (R111). -/
theorem sfrView_sfrPut_other (h : x.stored v = some e) (hy : y ≠ x) :
    (s.sfrPut x v word).sfrView y = s.sfrView y := by
  cases x with
  | pcl | pch | sr | corcon => cases h
  | w n =>
    cases y with
    | w q => exact congrArg some ((readW_sfrPut_w n q).trans (if_neg fun hnq => hy (congrArg Sfr.w hnq.symm)))
    | _ => rw [sfrPut_w]; split <;> rfl
  | accL a =>
    obtain ⟨-, hhigh, hupper⟩ := acc_replaceLow (s.acc a) v
    exact sfrView_setAcc_other (fun e => absurd e hy) (fun _ => hhigh) fun _ => hupper
  | accH a =>
    obtain ⟨hlow, -, hupper⟩ := acc_replaceHigh (s.acc a) v
    exact sfrView_setAcc_other (fun _ => hlow) (fun e => absurd e hy) fun _ => hupper
  | accU a =>
    obtain ⟨hlow, hhigh, -⟩ := acc_replaceUpper (s.acc a) v
    exact sfrView_setAcc_other (fun _ => hlow) (fun _ => hhigh) fun e => absurd e hy
  | dostartl =>
    cases y with
    | dostartl => exact absurd rfl hy
    | dostarth => exact congrArg some (pcHigh_withPcLow _ v)
    | _ => rfl
  | dostarth =>
    cases y with
    | dostartl => exact congrArg some (pcLow_withPcHigh _ v)
    | dostarth => exact absurd rfl hy
    | _ => rfl
  | doendl =>
    cases y with
    | doendl => exact absurd rfl hy
    | doendh => exact congrArg some (pcHigh_withPcLow _ v)
    | _ => rfl
  | doendh =>
    cases y with
    | doendl => exact congrArg some (pcLow_withPcHigh _ v)
    | doendh => exact absurd rfl hy
    | _ => rfl
  | modcon =>
    obtain ⟨hoff, -⟩ := stored_modcon h
    rw [sfrPut_of_run (run_writeSfr_modcon hoff)]
    cases y <;> first | rfl | exact absurd rfl hy
  | xbrev =>
    obtain ⟨hoff, -⟩ := stored_xbrev h
    rw [sfrPut_of_run (run_writeSfr_xbrev hoff)]
    cases y <;> first | rfl | exact absurd rfl hy
  | _ => cases y <;> first | rfl | exact absurd rfl hy

/-- What a write of the CPU register `x` notes for the rules that look at it, and what it leaves alone (R26, R66, R472,
R570, R575). -/
structure SfrNoted (s : State) (x : Sfr) (word : Bool) (t : State) : Prop where
  data : t.data = s.data
  armed : t.splimArmed = (s.splimArmed || (x == .splim && word))
  initialised : ∀ n, t.initialised n = (s.initialised n || (x == .w n && word && s.dev.mmapWordWriteInitsW))
  splim : t.cur.recent.splim = (s.cur.recent.splim || x == .splim)
  doend : t.cur.recent.doend = (s.cur.recent.doend || [.doendl, .doendh].contains x)
  loopRegs : t.cur.loopRegs = (s.cur.loopRegs || [.dcount, .dostartl, .dostarth, .doendl, .doendh].contains x)

/-- Nothing is noted of a register that no rule looks at. -/
theorem sfrNoted_of_kept {t : State} (hw : ∀ n, x ≠ .w n)
    (hx : x ∉ [.splim, .dcount, .dostartl, .dostarth, .doendl, .doendh]) (hdata : t.data = s.data)
    (harmed : t.splimArmed = s.splimArmed) (hinit : ∀ n, t.initialised n = s.initialised n) (hcur : t.cur = s.cur) :
    SfrNoted s x word t := by
  simp only [List.mem_cons, not_or] at hx
  obtain ⟨hsplim, hdcount, hdostartl, hdostarth, hdoendl, hdoendh, -⟩ := hx
  constructor
  case data => exact hdata
  case armed => simp [harmed, hsplim]
  case initialised => simp [hinit, hw]
  case splim => simp [hcur, hsplim]
  case doend => simp [hcur, hdoendl, hdoendh]
  case loopRegs => simp [hcur, hdcount, hdostartl, hdostarth, hdoendl, hdoendh]

theorem initialised_sfrPut_w (n q : RegNum) :
    (s.sfrPut (.w n) v word).initialised q =
      (s.initialised q || (Sfr.w n == .w q && word && s.dev.mmapWordWriteInitsW)) := by
  rw [sfrPut_w, Bool.and_assoc]
  split
  case isTrue h =>
    rw [h, Bool.and_true, show (Sfr.w n == .w q) = (n == q) by rw [Bool.eq_iff_iff]; simp]
    exact initialised_putWord s n q v
  case isFalse h =>
    rw [Bool.eq_false_iff.2 h, Bool.and_false, Bool.or_false]
    rfl

theorem sfrPut_noted (h : x.stored v = some e) : SfrNoted s x word (s.sfrPut x v word) := by
  cases x with
  | pcl | pch | sr | corcon => cases h
  | w n =>
    constructor
    case initialised => exact initialised_sfrPut_w n
    case data => rw [sfrPut_w]; split <;> rfl
    all_goals rw [sfrPut_w]; split <;> exact (Bool.or_false _).symm
  | splim =>
    exact ⟨rfl, rfl, fun _ => (Bool.or_false _).symm, (Bool.or_true _).symm, (Bool.or_false _).symm,
      (Bool.or_false _).symm⟩
  | dcount | dostartl | dostarth =>
    exact ⟨rfl, (Bool.or_false _).symm, fun _ => (Bool.or_false _).symm, (Bool.or_false _).symm, (Bool.or_false _).symm,
      (Bool.or_true _).symm⟩
  | doendl | doendh =>
    exact ⟨rfl, (Bool.or_false _).symm, fun _ => (Bool.or_false _).symm, (Bool.or_false _).symm, (Bool.or_true _).symm,
      (Bool.or_true _).symm⟩
  | modcon =>
    rw [sfrPut_of_run (run_writeSfr_modcon (stored_modcon h).1)]
    exact sfrNoted_of_kept (by simp) (by simp) rfl rfl (fun _ => rfl) rfl
  | xbrev =>
    rw [sfrPut_of_run (run_writeSfr_xbrev (stored_xbrev h).1)]
    exact sfrNoted_of_kept (by simp) (by simp) rfl rfl (fun _ => rfl) rfl
  | _ => exact sfrNoted_of_kept (by simp) (by simp) rfl rfl (fun _ => rfl) rfl

end

/-- What a software write of the CPU register `x` leaves that afterwards reads as `e` (R111). -/
structure SfrWritten (s : State) (x : Sfr) (e : Word) (word : Bool) (t : State) : Prop where
  view : t.sfrView x = some e
  others : ∀ y, y ≠ x → t.sfrView y = s.sfrView y
  noted : SfrNoted s x word t

section
variable {s t : State} {x : Sfr} {v old e a : Word} {byte word : Bool} {n : RegNum}

/-- A write that the register takes is made (R111). -/
theorem writeSfr_stored (h : x.stored v = some e) :
    ∃ t, (writeSfr x v word).run s = .ok () t ∧ SfrWritten s x e word t :=
  ⟨_, run_writeSfr h, sfrView_sfrPut_same h, fun _ => sfrView_sfrPut_other h, sfrPut_noted h⟩

/-- A write of a W register keeps the other ones (R112). -/
theorem SfrWritten.regsKept (h : SfrWritten s (.w n) e word t) : RegsKept s t [n] := by
  intro m hm
  have hne : Sfr.w m ≠ .w n := fun hmn => hm (List.mem_singleton.2 (Sfr.w.inj hmn))
  refine ⟨Option.some.inj (h.others (.w m) hne), ?_⟩
  rw [h.noted.initialised, beq_eq_false_iff_ne.2 hne.symm, Bool.false_and, Bool.false_and, Bool.or_false]

/-- A byte write to the address of a CPU register writes the register with one lane replaced (R111). -/
theorem memWrite_sfr_byte (hx : sfrAt s.dev a = some x) (hold : s.sfrView x = some old) (v : Word) :
    (memWrite true a v).run s = (writeSfr x (withLane a old (v.extractLsb' 0 8)) false).run s := by
  unfold memWrite
  simp only [Bool.not_true, Bool.false_and, run_bind, run_addressErrorIf_false, run_getS, hx, hold, if_true,
    Option.getD_some]

/-- A write of either size to the address of a CPU register (R111). -/
theorem memWrite_sfr_stored (ha : byte = true ∨ a.getLsbD 0 = false) (hx : sfrAt s.dev a = some x)
    (hold : s.sfrView x = some old)
    (h : x.stored (if byte then withLane a old (v.extractLsb' 0 8) else v) = some e) :
    ∃ t, (memWrite byte a v).run s = .ok () t ∧ SfrWritten s x e (!byte) t := by
  cases byte with
  | false =>
    rw [memWrite_sfr (by simpa using ha) hx]
    exact writeSfr_stored h
  | true =>
    rw [memWrite_sfr_byte hx hold]
    exact writeSfr_stored h

theorem withLane_fileAddress (f : BitVec 13) (old : Word) (b : Byte) :
    withLane (fileAddress f) old b =
      if f.getLsbD 0 then b ++ old.extractLsb' 0 8 else old.extractLsb' 8 8 ++ b := by
  have hbit : (fileAddress f).getLsbD 0 = f.getLsbD 0 := by
    rw [fileAddress, BitVec.getLsbD_setWidth]
    rfl
  rw [withLane, hbit]
  rfl

/-- The word that a store of a register's value writes to a CPU register that reads as `old`: the value itself, or
`old` with its low byte in the lane of the address (R108, R111). -/
theorem storedWord_eq {w : Word}
    (hv : byte = false ∧ v = w ∨ byte = true ∧ a.getLsbD 0 = true ∧ v = w.extractLsb' 0 8 ++ old.extractLsb' 0 8 ∨
      byte = true ∧ a.getLsbD 0 = false ∧ v = old.extractLsb' 8 8 ++ w.extractLsb' 0 8) :
    (if byte then withLane a old ((sized byte w).extractLsb' 0 8) else sized byte w) = v := by
  rcases hv with ⟨rfl, rfl⟩ | ⟨rfl, h0, rfl⟩ | ⟨rfl, h0, rfl⟩
  · rfl
  · rw [if_pos rfl, sized, if_pos rfl, extract_setWidth_byte, withLane, if_pos h0]
  · rw [if_pos rfl, sized, if_pos rfl, extract_setWidth_byte, withLane, if_neg (Bool.eq_false_iff.1 h0), withLowByte]

/-! ### The refused writes and the refused read -/

theorem writeSfr_pc_refused (hx : x = .pcl ∨ x = .pch) :
    (writeSfr x v word).run s = .error (.refused .pcWrite) s := by
  rcases hx with rfl | rfl <;> rfl

theorem writeSfr_modcon_refused (hv : v.getLsbD 15 = true ∨ v.getLsbD 14 = true) :
    (writeSfr .modcon v word).run s = .error (.refused .moduloAddressing) s := by
  unfold writeSfr
  rw [Bool.or_eq_true_iff.2 hv]
  rfl

theorem writeSfr_xbrev_refused (hv : v.getLsbD 15 = true) :
    (writeSfr .xbrev v word).run s = .error (.refused .moduloAddressing) s := by
  unfold writeSfr
  rw [hv]
  rfl

/-- DOENDL and DOENDH are not read right after a DO or a write to them (R575). -/
theorem readSfr_doend_refused (hx : x = .doendl ∨ x = .doendh) (hl : s.last.doend = true) :
    (readSfr x).run s = .error (.refused .doendRead) s := by
  rcases hx with rfl | rfl <;> exact if_pos hl

theorem memRead_doend_refused (ha : a.getLsbD 0 = false) (hx : sfrAt s.dev a = some x)
    (hd : x = .doendl ∨ x = .doendh) (hl : s.last.doend = true) :
    (memRead false a).run s = .error (.refused .doendRead) s := by
  unfold memRead
  simp only [ha, Bool.and_false, run_bind, run_addressErrorIf_false, run_getS, hx, readSfr_doend_refused hd hl]

/-! ### MOV that stores in memory -/

theorem exec_movToFile (f : BitVec 16) (r : RegNum) :
    exec (.movToFile f r) s = outcome (memWrite false f (s.readW r)) s := by
  show execMovToFile f r s = _
  unfold execMovToFile outcome
  rw [run_bind_ok (run_readW r s)]

theorem exec_movWregToFile (f : BitVec 13) :
    exec (.movWregToFile byte f) s = outcome (memWrite byte (fileAddress f) (s.readW 0)) s := by
  show execMovWregToFile byte f s = _
  unfold execMovWregToFile outcome
  rw [run_bind_ok (run_readW 0 s)]

/-- A MOV from a register through a pointer writes memory after the pointer modification (R112, R200). -/
theorem exec_mov_store {b : RegNum} {dst : Operand} (r : RegNum) (hd : dst.isDirect = false)
    (ha : s.addressable b (stepOf byte) dst = true) :
    exec (.mov b byte dst ⟨.direct, r⟩) s =
      outcome (memWrite byte (s.effective b (stepOf byte) dst) (sized byte (s.readW r)))
        (s.modified (stepOf byte) dst) := by
  show execMov b byte dst ⟨.direct, r⟩ s = _
  have hsrc : (readOperand b byte ⟨.direct, r⟩).run s = .ok (sized byte (s.readW r)) s := readOperand_ready rfl
  have hc : conflicts ⟨.direct, r⟩ dst = false := rfl
  unfold execMov outcome refuseConflict
  rw [hc, run_bind_ok (run_stopIf_false _ s), run_bind_ok hsrc, writeOperand_addressable hd ha]

theorem modified_marks (s : State) (step : Word) (o : Operand) :
    (s.modified step o).cur.recent.splim = s.cur.recent.splim ∧
    (s.modified step o).cur.recent.doend = s.cur.recent.doend ∧
    (s.modified step o).cur.loopRegs = s.cur.loopRegs := by
  unfold State.modified
  cases o.mode.newPointer (s.readW o.reg) step <;> exact ⟨rfl, rfl, rfl⟩

theorem not_mem_operandChanged {r : RegNum} {o : Operand} (h : r ≠ o.reg ∨ o.modifies = false) :
    r ∉ operandChanged o := by
  unfold operandChanged
  split
  case isTrue hm =>
    rcases h with h | h
    · exact fun hr => h (List.mem_singleton.1 hr)
    · exact absurd hm (Bool.eq_false_iff.1 h)
  case isFalse => exact List.not_mem_nil

end

end Sys2Proof.Machine

namespace Sys2Proof.Proofs

open Sys2Proof.Machine

/-- Settles O4: the bytes at the pc are those of the instruction, and both its words are implemented. -/
theorem withFetchWordFetched : Obligations.WithFetchWordFetched := by
  intro s nbits w hwf
  have hbytes := bytesAt_withFetchWord hwf nbits w
  refine ⟨hbytes, fun i hi htop => ?_⟩
  obtain ⟨rest, hd⟩ := decode_of_decodeTableWord hi
  have hwords := words_le_two i
  have hend : s.pc.toNat + 2 * (i.words - 1) ≤ s.dev.progTop.toNat := by omega
  exact fetchAt_of_decode (hbytes ▸ hd) hend

/-- Settles O17. A write to the address of a CPU register is `writeSfr`, of which `writeSfr_stored` says what it leaves;
a store through a pointer is that write after the pointer modification, which changes no other CPU register. -/
theorem registerWrites : Obligations.RegisterWrites := by
  intro s r x e old
  refine ⟨fun f h0 hx he => ?word, fun f hx hold he => ?lane, fun f h0 => ⟨fun hx => ?pc, fun hx hv => ?modcon,
    fun hx hv => ?xbrev, fun hx hl => ?doend⟩, fun b byte dst u ea v hd ha hea hu => ?pointer,
    fun n hn hi h0 hx => ?ownRegister⟩
  case word =>
    obtain ⟨t, hrun, hview, hothers, hnoted⟩ := writeSfr_stored (s := s) (word := true) he
    refine ⟨t, (exec_movToFile_sfr r h0 hx).trans (outcome_ok hrun), hview, hothers, hnoted.data, ?_, fun n => ?_,
      hnoted.splim, hnoted.doend, hnoted.loopRegs⟩
    · rw [hnoted.armed, Bool.and_true]
    · rw [hnoted.initialised, Bool.and_true]
  case lane =>
    obtain ⟨t, hrun, hview, hothers, hnoted⟩ :=
      memWrite_sfr_stored (byte := true) (v := s.readW 0) (e := e) (.inl rfl) hx hold (by
        rw [if_pos rfl, withLane_fileAddress]
        exact he)
    refine ⟨t, (exec_movWregToFile f).trans (outcome_ok hrun), hview, hothers, hnoted.data, ?_, fun n => ?_,
      hnoted.splim, hnoted.doend, hnoted.loopRegs⟩
    · rw [hnoted.armed, Bool.not_true, Bool.and_false, Bool.or_false]
    · rw [hnoted.initialised, Bool.not_true, Bool.and_false, Bool.false_and, Bool.or_false]
  case pc =>
    rcases hx with hx | hx
    · exact (exec_movToFile_sfr r h0 hx).trans (outcome_refused (writeSfr_pc_refused (.inl rfl)))
    · exact (exec_movToFile_sfr r h0 hx).trans (outcome_refused (writeSfr_pc_refused (.inr rfl)))
  case modcon => exact (exec_movToFile_sfr r h0 hx).trans (outcome_refused (writeSfr_modcon_refused hv))
  case xbrev => exact (exec_movToFile_sfr r h0 hx).trans (outcome_refused (writeSfr_xbrev_refused hv))
  case doend =>
    rcases hx with hx | hx
    · exact outcome_refused (run_bind_error (memRead_doend_refused h0 hx (.inl rfl) hl))
    · exact outcome_refused (run_bind_error (memRead_doend_refused h0 hx (.inr rfl) hl))
  case pointer =>
    subst hea hu
    have hexec := exec_mov_store r hd ha
    refine ⟨fun hb hkeep => ?asFile, fun hal hx hold hv he => ?stored⟩
    case asFile =>
      subst hb
      obtain ⟨hread, -⟩ := movePointer_regsKept s (stepOf false) dst r (not_mem_operandChanged hkeep)
      rw [hexec, exec_movToFile, hread]
      rfl
    case stored =>
      obtain ⟨hsplim, hdoend, hloop⟩ := modified_marks s (stepOf byte) dst
      have hrest := modified_sameRest s (stepOf byte) dst
      rw [← hrest.dev] at hx
      rw [← storedWord_eq hv] at he
      obtain ⟨t, hrun, hview, hothers, hnoted⟩ := memWrite_sfr_stored hal hx hold he
      refine ⟨t, hexec.trans (outcome_ok hrun), hview, hothers, ?_, ?_, fun n => ?_, ?_, ?_, ?_⟩
      · exact hnoted.data.trans (movePointer_data s _ _)
      · rw [hnoted.armed, hrest.stackLimit.2]
      · rw [hnoted.initialised, hrest.dev]
      · rw [hnoted.splim, hsplim]
      · rw [hnoted.doend, hdoend]
      · rw [hnoted.loopRegs, hloop]
  case ownRegister =>
    have ha : s.addressable 0 (stepOf false) ⟨.postInc, n⟩ = true := by
      rw [State.addressable, usesStack_eq_false hn]
      exact Bool.and_eq_true_iff.2 ⟨hi, rfl⟩
    have hst : (Sfr.w n).stored (s.readW r) = some (s.readW r) := congrArg some (if_neg hn)
    rw [← (modified_sameRest s (stepOf false) ⟨.postInc, n⟩).dev] at hx
    obtain ⟨t, hrun, hw⟩ := writeSfr_stored (s := s.modified (stepOf false) ⟨.postInc, n⟩) (word := true) hst
    rw [← memWrite_sfr h0 hx] at hrun
    refine ⟨t, (exec_mov_store r rfl ha).trans (outcome_ok hrun), Option.some.inj hw.view, ?_⟩
    exact ((movePointer_regsKept s _ ⟨.postInc, n⟩).trans hw.regsKept).mono (by simp [operandChanged, Operand.modifies])

/-- Settles O21. A pointer into the window is a ready source operand whose value `readable_psvWindow` gives; the write
stops with the fault of the window. -/
theorem psvWindow : Obligations.PsvWindow := by
  refine fun s n d f w hp => ⟨fun hn hi h15 htop hw => ?read, fun h15 h0 => ?write⟩
  case read =>
    subst hw
    have htop' : s.progImplemented (s.psvAddress (s.readW n)) = true := decide_eq_true htop
    refine ⟨fun h0 => ?word, fun hd => ?byte⟩
    case word =>
      obtain ⟨hs, hv⟩ := sourceReady_psvWindow hp hn hi h15 (byte := false) (.inr h0) htop'
      obtain ⟨u, hexec, -, hkept⟩ := exec_mov_indirect (d := d) hs
      refine ⟨_, hexec, ?_, hkept _⟩
      rw [hv]
      exact (readW_putWord u d d _).trans (if_pos rfl)
    case byte =>
      obtain ⟨hs, hv⟩ := sourceReady_psvWindow hp hn hi h15 (byte := true) (.inl rfl) htop'
      obtain ⟨u, hexec, hold, hkept⟩ := exec_mov_indirect (d := d) hs
      refine ⟨_, hexec, ?_, hkept _⟩
      rw [hv, laneOrWord, if_pos rfl, lane_progWord]
      refine (readW_putByte u d d _).trans ?_
      rw [if_pos rfl, if_neg hd, hold, extract_setWidth_byte]
      rfl
  case write =>
    have hwin : (s.corcon.psv && f.getLsbD 15) = true := by rw [hp, h15]; rfl
    exact (exec_movToFile f d).trans
      (outcome_fault (memWrite_psvWindow (.inr h0) (sfrAt_upperHalf s.dev h15) hwin _))

end Sys2Proof.Proofs
end

section
/-! Family 30_encoding. What the encoder places the decoder reads back, the decoder gives only what an instruction word
can hold, and the forms that have a row and no rule. -/

namespace Sys2Proof

/-! ### Fields of a word -/

/-- A field that begins at or below what was placed. -/
theorem field_place_le {n : Nat} (x : BitVec n) {lo lo' len : Nat} (h : lo ≤ lo') (h2 : lo + len ≤ 24) :
    field (place lo' x) lo len = x.setWidth len <<< (lo' - lo) := by
  apply BitVec.eq_of_getLsbD_eq
  intro i hi
  by_cases hlt : lo + i < lo'
  · simp [field, place, hi, hlt, show i < lo' - lo by omega]
  · simp [field, place, hi, hlt, show lo + i < 24 by omega, show ¬ i < lo' - lo by omega,
      show lo + i - lo' = i - (lo' - lo) by omega]

/-- A field within a field. -/
theorem extract_field (w : ProgWord) (lo k : Nat) {len m : Nat} (h : k + m ≤ len) :
    field w (lo + k) m = (field w lo len).extractLsb' k m := by
  apply BitVec.eq_of_getLsbD_eq
  intro i hi
  simp [field, hi, show k + i < len by omega, Nat.add_assoc]

theorem extract_zero_one_of_even {n : Nat} {x : BitVec n} (h : x.getLsbD 0 = false) : x.extractLsb' 0 1 = 0#1 := by
  apply BitVec.eq_of_getLsbD_eq
  intro i hi
  obtain rfl : i = 0 := by omega
  simpa using h

/-- An even value is its upper bits and a zero. -/
theorem extract_append_zero_of_even {n : Nat} {x : BitVec (n + 1)} (h : x.getLsbD 0 = false) :
    x.extractLsb' 1 n ++ 0#1 = x := by
  rw [← extract_zero_one_of_even h]
  exact (BitVec.extractLsb'_append_extractLsb'_eq_extractLsb' rfl).trans BitVec.extractLsb'_eq_self

theorem append_zero_even {n : Nat} (x : BitVec n) : (!(x ++ 0#1).getLsbD 0) = true := by
  rw [BitVec.getLsbD_append]
  rfl

theorem even_of_field_zero {w : ProgWord} {n : Nat} (h : field w 0 1 = 0) : (field w 0 (n + 1)).getLsbD 0 = false := by
  have := congrArg (BitVec.getLsbD · 0) h
  simpa [field] using this

theorem targetOf_even (w1 w2 : ProgWord) : (!(targetOf w1 w2).getLsbD 0) = true := by
  rw [targetOf, BitVec.getLsbD_append, BitVec.getLsbD_append]
  rfl

/-- The bytes of the word that three bytes make are those bytes (log 3). -/
theorem bytesOfWord_wordOfBytes (b0 b1 b2 : Byte) : bytesOfWord (wordOfBytes b0 b1 b2) = [b0, b1, b2] := by
  simp [bytesOfWord, wordOfBytes]

theorem length_bytesOfWord (w : ProgWord) : (bytesOfWord w).length = 3 := rfl

theorem bitNumber_bits (bit : BitVec 4) : bit.extractLsb' 3 1 ++ bit.extractLsb' 0 3 = bit :=
  (BitVec.extractLsb'_append_extractLsb'_eq_extractLsb' rfl).trans BitVec.extractLsb'_eq_self

/-- The two fields of a target and the zero of its bit 0 make the target (R170). -/
theorem target_bits {t : PcAddr} (h : t.getLsbD 0 = false) :
    t.extractLsb' 16 7 ++ (t.extractLsb' 1 15 ++ 0#1) = t := by
  have hlow : t.extractLsb' 1 15 ++ t.extractLsb' 0 1 = t.extractLsb' 0 16 :=
    BitVec.extractLsb'_append_extractLsb'_eq_extractLsb' rfl
  rw [← extract_zero_one_of_even h, hlow]
  exact (BitVec.extractLsb'_append_extractLsb'_eq_extractLsb' rfl).trans BitVec.extractLsb'_eq_self

/-! ### Codes and what they stand for -/

@[simp] theorem modeOf_modeCode (m : Mode) : modeOf (modeCode m) = m := by
  cases m <;> rfl

@[simp] theorem operandAny_modeCode (o : Operand) : operandAny (modeCode o.mode) o.reg = o := by
  rw [operandAny, modeOf_modeCode]

theorem operandPlain_modeCode {o : Operand} (h : o.noOffset = true) :
    operandPlain (modeCode o.mode) o.reg = .ok o := by
  obtain ⟨m, r⟩ := o
  cases m
  case offset => cases h
  all_goals rfl

theorem operandPlain_modeCode_bind {o : Operand} (h : o.noOffset = true) (f : Operand → Except Reject Instr) :
    (operandPlain (modeCode o.mode) o.reg >>= f) = f o := by
  rw [operandPlain_modeCode h]
  rfl

/-- Where `[Wn+Wb]` is not one of the forms, it is not given (R157). -/
theorem noOffset_of_operandPlain {c : BitVec 3} {r : RegNum} {o : Operand} (h : operandPlain c r = .ok o) :
    o.noOffset = true := by
  unfold operandPlain at h
  split at h <;> cases h <;> rfl

/-- The mode field of a plain operand leaves the codes `11.` to the five-bit literal of ADD (R170). -/
theorem modeCode_ne_literal {o : Operand} (h : o.noOffset = true) : ¬ (modeCode o.mode).extractLsb' 1 2 = 3#2 := by
  obtain ⟨m, r⟩ := o
  cases m
  case offset => cases h
  all_goals simp [modeCode]

@[simp] theorem accOf_accBit (a : Acc) : accOf (accBit a)[0] = a := by
  cases a <;> rfl

theorem pairOf_pairCode_bind (m : MulPair) (f : MulPair → Except Reject Instr) :
    (pairOf (pairCode m) >>= f) = f m := by
  cases m <;> rfl

@[simp] theorem prefetchOf_prefetchCode (p : Prefetch) : prefetchOf (prefetchCode p) = p := by
  cases p with
  | none | indexed => rfl
  | pointer second step => cases second <;> cases step <;> rfl

@[simp] theorem writeBackOf_writeBackCode (wb : WriteBack) : writeBackOf (writeBackCode wb) = wb := by
  cases wb <;> rfl

/-- The code 11 of field `a` is left to MPY and MPY.N (log 27). -/
theorem writeBackCode_ne_mpy (wb : WriteBack) : ¬ writeBackCode wb = 3#2 := by
  cases wb <;> simp [writeBackCode]

/-! ### How many words the first word announces -/

/-- The opcode byte of the two-word rows is none of a one-word row (R151). -/
theorem decodeOne_of_firstWordLength_two {w : ProgWord} (h : firstWordLength w = 2) :
    decodeOne w = .error .unknownOpcode := by
  have hbyte : field w 16 8 = 2 ∨ field w 16 8 = 4 ∨ field w 16 8 = 8 := by
    unfold firstWordLength at h
    split at h
    case h_1 e => exact .inl (BitVec.eq_of_toNat_eq e)
    case h_2 e => exact .inr (.inl (BitVec.eq_of_toNat_eq e))
    case h_3 e => exact .inr (.inr (BitVec.eq_of_toNat_eq e))
    case h_4 => cases h
  have htop : field w 20 4 = (field w 16 8).extractLsb' 4 4 := extract_field w 16 4 (by omega)
  have hlow : field w 16 4 = (field w 16 8).extractLsb' 0 4 := extract_field w 16 0 (by omega)
  rcases hbyte with e | e | e <;> simp [decodeOne, decode0, htop, hlow, e]

theorem firstWordLength_eq (w : ProgWord) : firstWordLength w = 1 ∨ firstWordLength w = 2 := by
  unfold firstWordLength
  split
  case h_4 => exact .inl rfl
  all_goals exact .inr rfl

theorem firstWordLength_of_decodeOne {w : ProgWord} {i : Instr} (h : decodeOne w = .ok i) : firstWordLength w = 1 := by
  rcases firstWordLength_eq w with h1 | h2
  · exact h1
  · rw [decodeOne_of_firstWordLength_two h2] at h
    cases h

theorem firstWordLength_of_decodeTwo {w1 w2 : ProgWord} {i : Instr} (h : decodeTwo w1 w2 = .ok i) :
    firstWordLength w1 = 2 := by
  unfold decodeTwo at h
  unfold firstWordLength
  split at h
  case h_1 | h_2 | h_3 => rfl
  case h_4 => cases h

theorem decode_bytesOfWord_one {w : ProgWord} {i : Instr} (h : decodeOne w = .ok i) (rest : List Byte) :
    decode (bytesOfWord w ++ rest) = .ok (i, rest) := by
  simp [bytesOfWord, decode, firstWordLength_of_decodeOne h, h, Except.map]

theorem decode_bytesOfWord_two {w1 w2 : ProgWord} {i : Instr} (h : decodeTwo w1 w2 = .ok i) (rest : List Byte) :
    decode (bytesOfWord w1 ++ (bytesOfWord w2 ++ rest)) = .ok (i, rest) := by
  simp [bytesOfWord, decode, firstWordLength_of_decodeTwo h, h, Except.map]

/-! ### The parts of the decoder -/

/-- The rows with a code of their own stand above `1100 0mmm`. -/
theorem decodeC_eq_decodeMac {w : ProgWord} (h : flag w 19 = false) : decodeC w = decodeMac w := by
  have hlt : (field w 16 4).toNat < 8 := by
    have hmsb : (field w 16 4).msb = false := by simpa [field, flag, BitVec.msb_eq_getLsbD_last] using h
    simpa using BitVec.toNat_lt_of_msb_false hmsb
  unfold decodeC
  split
  case h_7 => exact if_neg (by simp [h])
  all_goals omega

/-- The rows with a code of their own stand above `1111 00mm`. -/
theorem decodeF_eq_decodeSquare {w : ProgWord} (h : field w 18 2 = 0) : decodeF w = decodeSquare w := by
  have hlt : (field w 16 4).toNat < 4 := by
    have hhigh : (field w 16 4).extractLsb' 2 2 = 0 := (extract_field w 16 2 (by omega)).symm.trans h
    have hdiv : (field w 16 4).toNat / 4 % 4 = 0 := by
      simpa [BitVec.extractLsb'_toNat, Nat.shiftRight_eq_div_pow] using congrArg BitVec.toNat hhigh
    omega
  unfold decodeF
  split
  case h_5 => exact if_pos h
  all_goals omega

/-- The top four bits of the first word of the instruction's row (R170), by which `decodeOne` chooses the part that reads
it; `topBits_encode` ties it to the encoder. -/
def Instr.topBits : Instr → Nat
  | .nop | .call _ | .goto _ | .retlw .. | .ret | .retfie | .rcall _ => 0
  | .doLit .. | .doReg .. | .repeatLit _ | .repeatReg _ => 0
  | .movLit16 .. => 2
  | .bra _ => 3
  | .addReg .. | .addLit5 .. => 4
  | .mov .. | .push _ | .pop _ => 7
  | .movFromFile .. | .movToFile .. => 8
  | .bsetInd .. | .bclrInd .. | .btscInd .. | .bsetFile .. | .bclrFile .. | .btscFile .. => 10
  | .addLit10 .. | .movLit8 .. | .addFile .. | .movWregToFile .. | .mulUU .. | .mulUS .. | .mulSU .. | .mulSS .. => 11
  | .tblrdl .. | .mulFile .. | .movDLoad .. | .movDStore .. | .movFile .. => 11
  | .mac .. | .mpy .. | .msc .. | .mpyN .. => 12
  | .sftacReg .. | .sftacLit .. | .addAccSrc .. | .lac .. | .addAcc _ | .sac .. | .sacR .. => 12
  | .slOne .. | .lsrOne .. | .asrOne .. | .slFile .. | .lsrFile .. | .asrFile .. => 13
  | .divSW .. | .divSD .. | .divUW .. | .divUD .. | .divF .. => 13
  | .slReg .. | .slLit .. | .lsrReg .. | .lsrLit .. | .asrReg .. | .asrLit .. => 13
  | .macSq .. | .mpySq .. | .edac .. | .ed .. => 15
  | .lnk _ | .ulnk | .se .. | .ze .. | .disi _ | .reset | .pwrsav _ | .popS | .pushS => 15

section
variable {i : Instr} {w w1 w2 : ProgWord}

theorem topBits_encode (e : encode i = [w]) : (field w 20 4).toNat = i.topBits := by
  cases i with
  | nop | ret | retfie | ulnk | reset | popS | pushS => cases e; rfl
  | call | goto | doLit | doReg => cases e
  | _ => cases e; simp [Instr.topBits]

theorem topBits_mem (i : Instr) : i.topBits ∈ [0, 2, 3, 4, 7, 8, 10, 11, 12, 13, 15] := by
  cases i
  all_goals simp [Instr.topBits]

theorem decode0_encode (e : encode i = [w]) (ht : i.topBits = 0) : decode0 w = .ok i := by
  cases i with
  | nop | ret | retfie => cases e; rfl
  | retlw | rcall | repeatLit | repeatReg => cases e; simp [decode0]
  | call | goto | doLit | doReg => cases e
  | _ => cases ht

theorem decode4_encode (hw : i.wellFormed = true) (e : encode i = [w]) (ht : i.topBits = 4) : decode4 w = .ok i := by
  cases i with
  | addReg | addLit5 =>
    simp only [Instr.wellFormed, Bool.and_eq_true] at hw
    cases e
    simp [decode4, operandPlain_modeCode_bind, modeCode_ne_literal, hw]
  | _ => cases ht

theorem decode7_encode (hw : i.wellFormed = true) (e : encode i = [w]) (ht : i.topBits = 7) : decode7 w = .ok i := by
  cases i with
  | mov =>
    simp only [Instr.wellFormed, Bool.and_eq_true, Bool.not_eq_true'] at hw
    cases e
    simp [decode7, hw]
  | push | pop =>
    cases e
    simp [decode7, operandAny, modeOf, isPushForm, isPopForm]
  | _ => cases ht

theorem decode8_encode (hw : i.wellFormed = true) (e : encode i = [w]) (ht : i.topBits = 8) : decode8 w = .ok i := by
  cases i with
  | movFromFile | movToFile =>
    simp only [Instr.wellFormed, Bool.not_eq_true'] at hw
    cases e
    simp [decode8, extract_append_zero_of_even hw]
  | _ => cases ht

theorem decodeA_encode (hw : i.wellFormed = true) (e : encode i = [w]) (ht : i.topBits = 10) : decodeA w = .ok i := by
  cases i with
  | bsetInd | bclrInd | btscInd =>
    simp only [Instr.wellFormed] at hw
    cases e
    simp [decodeA, operandPlain_modeCode_bind hw]
  | bsetFile | bclrFile | btscFile =>
    simp only [Instr.wellFormed, Bool.not_eq_true'] at hw
    cases e
    simp [decodeA, bitNumber, bitFile, bitNumber_bits, extract_append_zero_of_even hw]
  | _ => cases ht

theorem decodeB_encode (hw : i.wellFormed = true) (e : encode i = [w]) (ht : i.topBits = 11) : decodeB w = .ok i := by
  cases i with
  | addLit10 | movLit8 | addFile | movWregToFile | mulFile | movFile =>
    cases e
    simp [decodeB]
  | mulUU | mulUS | mulSU | mulSS | tblrdl =>
    simp only [Instr.wellFormed, Bool.and_eq_true] at hw
    cases e
    simp [decodeB, operandPlain_modeCode_bind, hw]
  | movDLoad =>
    simp only [Instr.wellFormed, Bool.and_eq_true, Bool.not_eq_true'] at hw
    obtain ⟨heven, hsrc⟩ := hw
    cases e
    simp [decodeB, operandPlain_modeCode_bind hsrc, extract_append_zero_of_even heven]
  | movDStore =>
    simp only [Instr.wellFormed, Bool.and_eq_true, Bool.not_eq_true'] at hw
    obtain ⟨hdst, heven⟩ := hw
    cases e
    simp [decodeB, field_place_le, operandPlain_modeCode_bind hdst, extract_append_zero_of_even heven]
  | _ => cases ht

theorem decodeC_encode (e : encode i = [w]) (ht : i.topBits = 12) : decodeC w = .ok i := by
  cases i with
  | mac | mpy | msc | mpyN =>
    cases e
    simp [decodeC_eq_decodeMac, decodeMac, pairOf_pairCode_bind, writeBackCode_ne_mpy]
  | sftacReg | sftacLit | addAccSrc | lac | addAcc | sac | sacR =>
    cases e
    simp [decodeC]
  | _ => cases ht

theorem decodeD_encode (hw : i.wellFormed = true) (e : encode i = [w]) (ht : i.topBits = 13) : decodeD w = .ok i := by
  cases i with
  | slOne | lsrOne | asrOne =>
    simp only [Instr.wellFormed, Bool.and_eq_true] at hw
    cases e
    simp [decodeD, operandPlain_modeCode_bind, hw]
  | slFile | lsrFile | asrFile | divSW | divSD | divUW | divUD | divF | slReg | lsrReg | asrReg =>
    cases e
    simp [decodeD]
  | slLit | lsrLit | asrLit =>
    cases e
    simp [decodeD, field_place_le]
  | _ => cases ht

theorem decodeF_encode (hw : i.wellFormed = true) (e : encode i = [w]) (ht : i.topBits = 15) : decodeF w = .ok i := by
  cases i with
  | ulnk | reset | popS | pushS => cases e; rfl
  | macSq | mpySq | edac | ed =>
    cases e
    simp [decodeF_eq_decodeSquare, decodeSquare]
  | lnk =>
    simp only [Instr.wellFormed, Bool.not_eq_true'] at hw
    cases e
    simp [decodeF, extract_zero_one_of_even hw]
  | se | ze =>
    simp only [Instr.wellFormed] at hw
    cases e
    simp [decodeF, operandPlain_modeCode_bind hw]
  | disi | pwrsav =>
    cases e
    simp [decodeF, field_place_le]
  | _ => cases ht

/-- Every one-word row reads back (R170). -/
theorem decodeOne_encode (hw : i.wellFormed = true) (e : encode i = [w]) : decodeOne w = .ok i := by
  rw [decodeOne, topBits_encode e]
  split
  case h_1 ht => exact decode0_encode e ht
  case h_2 ht =>
    cases i with
    | movLit16 => cases e; simp
    | _ => cases ht
  case h_3 ht =>
    cases i with
    | bra => cases e; simp
    | _ => cases ht
  case h_4 ht => exact decode4_encode hw e ht
  case h_5 ht => exact decode7_encode hw e ht
  case h_6 ht => exact decode8_encode hw e ht
  case h_7 ht => exact decodeA_encode hw e ht
  case h_8 ht => exact decodeB_encode hw e ht
  case h_9 ht => exact decodeC_encode e ht
  case h_10 ht => exact decodeD_encode hw e ht
  case h_11 ht => exact decodeF_encode hw e ht
  case h_12 =>
    have := topBits_mem i
    simp_all

/-- Every two-word row reads back (R151, R170). -/
theorem decodeTwo_encode (hw : i.wellFormed = true) (e : encode i = [w1, w2]) : decodeTwo w1 w2 = .ok i := by
  cases i with
  | call | goto =>
    simp only [Instr.wellFormed, Bool.not_eq_true'] at hw
    cases e
    simp [decodeTwo, targetOf, target_bits hw]
  | doLit | doReg =>
    cases e
    simp [decodeTwo]
  | _ => cases e

theorem encode_one_or_two (i : Instr) : (∃ w, encode i = [w]) ∨ ∃ w1 w2, encode i = [w1, w2] := by
  cases i with
  | call | goto | doLit | doReg => exact .inr ⟨_, _, rfl⟩
  | _ => exact .inl ⟨_, rfl⟩
end

/-! ### What the decoder can give -/

/-- What a part of the decoder answers: it rejects, or gives a well-formed instruction of `n` words. The lemmas below
follow the branches of the decoder; those about its parts bear the hexadecimal digit of the rows' top four bits. -/
def Gives (n : Nat) (x : Except Reject Instr) : Prop :=
  ∀ i, x = .ok i → i.wellFormed = true ∧ i.words = n

namespace Gives

section
variable {n : Nat}

theorem error {r : Reject} : Gives n (.error r) := fun _ h => nomatch h

theorem ok {i : Instr} (hwf : i.wellFormed = true) (hwords : i.words = n) : Gives n (.ok i) := by
  rintro _ ⟨⟩
  exact ⟨hwf, hwords⟩

theorem ite {c : Prop} [Decidable c] {x y : Except Reject Instr} (hx : c → Gives n x) (hy : ¬ c → Gives n y) :
    Gives n (if c then x else y) := by
  split
  case isTrue h => exact hx h
  case isFalse h => exact hy h

theorem bind {α : Type} {x : Except Reject α} {f : α → Except Reject Instr} (hf : ∀ a, x = .ok a → Gives n (f a)) :
    Gives n (x >>= f) := by
  cases x with
  | error r => exact error
  | ok a => exact hf a rfl

theorem operand {c : BitVec 3} {r : RegNum} {f : Operand → Except Reject Instr}
    (hf : ∀ o : Operand, o.noOffset = true → Gives n (f o)) : Gives n (operandPlain c r >>= f) :=
  bind fun o ho => hf o (noOffset_of_operandPlain ho)

end

section
variable (w : ProgWord)

theorem rows0 : Gives 1 (decode0 w) := by
  unfold decode0
  split
  case h_1 | h_4 => exact ok rfl rfl
  case h_2 => exact ite (fun _ => error) fun _ => ok rfl rfl
  case h_3 => exact ite (fun _ => ok rfl rfl) fun _ => ite (fun _ => ok rfl rfl) fun _ => error
  case h_5 => exact ite (fun _ => ok rfl rfl) fun _ => ite (fun _ => ok rfl rfl) fun _ => error
  case h_6 => exact error

theorem rows4 : Gives 1 (decode4 w) :=
  ite (fun _ => error) fun _ => operand fun _ hdst =>
    ite (fun _ => ok hdst rfl) fun _ => operand fun _ hsrc => ok (Bool.and_eq_true_iff.2 ⟨hdst, hsrc⟩) rfl

/-- MOV is given only where the words are not those of its aliases (R159). -/
theorem rows7 : Gives 1 (decode7 w) :=
  ite (fun _ => ite (fun _ => ok rfl rfl) fun hpush => ite (fun _ => ok rfl rfl) fun hpop =>
    ok (by simp [Instr.wellFormed, hpush, hpop]) rfl) fun _ => error

theorem rows8 : Gives 1 (decode8 w) :=
  ite (fun _ => ok (append_zero_even _) rfl) fun _ => ok (append_zero_even _) rfl

theorem rowsA : Gives 1 (decodeA w) := by
  unfold decodeA
  split
  case h_1 | h_2 | h_3 => exact ite (fun _ => operand fun _ hsrc => ok hsrc rfl) fun _ => error
  case h_4 | h_5 | h_6 => exact ok (append_zero_even _) rfl
  case h_7 => exact error

theorem rowsB : Gives 1 (decodeB w) := by
  unfold decodeB
  split
  case h_1 | h_3 | h_8 => exact ite (fun _ => error) fun _ => ok rfl rfl
  case h_2 | h_4 | h_10 => exact ite (fun _ => ok rfl rfl) fun _ => error
  case h_5 | h_6 => exact operand fun _ hsrc => ite (fun _ => ok hsrc rfl) fun _ => ok hsrc rfl
  case h_7 =>
    exact ite (fun _ => error) fun _ => operand fun _ hdst => operand fun _ hsrc =>
      ok (Bool.and_eq_true_iff.2 ⟨hdst, hsrc⟩) rfl
  case h_9 =>
    exact ite (fun _ => operand fun _ hsrc => ok (Bool.and_eq_true_iff.2 ⟨append_zero_even _, hsrc⟩) rfl) fun _ =>
      ite (fun _ => operand fun _ hdst => ok (Bool.and_eq_true_iff.2 ⟨hdst, append_zero_even _⟩) rfl) fun _ => error
  case h_11 => exact error

theorem macRows : Gives 1 (decodeMac w) :=
  bind fun _ _ =>
    ite (fun _ => ite (fun _ => ok rfl rfl) fun _ => ok rfl rfl) fun _ => ite (fun _ => ok rfl rfl) fun _ => ok rfl rfl

theorem rowsC : Gives 1 (decodeC w) := by
  unfold decodeC
  split
  case h_1 => exact ite (fun _ => ok rfl rfl) fun _ => ite (fun _ => ok rfl rfl) fun _ => error
  case h_2 | h_3 | h_5 | h_6 => exact ok rfl rfl
  case h_4 => exact ite (fun _ => ok rfl rfl) fun _ => error
  case h_7 => exact ite (fun _ => error) fun _ => macRows w

theorem rowsD : Gives 1 (decodeD w) := by
  unfold decodeD
  split
  case h_1 =>
    exact ite (fun _ => error) fun _ => operand fun _ hdst => operand fun _ hsrc =>
      ok (Bool.and_eq_true_iff.2 ⟨hdst, hsrc⟩) rfl
  case h_2 =>
    exact operand fun _ hdst => operand fun _ hsrc =>
      ite (fun _ => ok (Bool.and_eq_true_iff.2 ⟨hdst, hsrc⟩) rfl) fun _ => ok (Bool.and_eq_true_iff.2 ⟨hdst, hsrc⟩) rfl
  case h_3 => exact ite (fun _ => error) fun _ => ok rfl rfl
  case h_4 => exact ite (fun _ => ok rfl rfl) fun _ => ok rfl rfl
  case h_5 => exact ite (fun _ => by split <;> exact ok rfl rfl) fun _ => error
  case h_6 => exact ite (fun _ => ok rfl rfl) fun _ => error
  case h_7 =>
    exact ite (fun _ => error) fun _ => ite (fun _ => ok rfl rfl) fun _ => ite (fun _ => ok rfl rfl) fun _ => error
  case h_8 =>
    exact ite (fun _ => ite (fun _ => ok rfl rfl) fun _ => ok rfl rfl) fun _ =>
      ite (fun _ => ite (fun _ => ok rfl rfl) fun _ => ok rfl rfl) fun _ => error
  case h_9 => exact error

theorem squareRows : Gives 1 (decodeSquare w) := by
  unfold decodeSquare
  split
  case h_1 | h_2 => exact ok rfl rfl
  case h_3 | h_4 => exact ite (fun _ => ok rfl rfl) fun _ => error
  case h_5 => exact error

theorem rowsF : Gives 1 (decodeF w) := by
  unfold decodeF
  split
  case h_1 =>
    exact ite (fun ⟨_, hbit⟩ => ok (congrArg (!·) (even_of_field_zero hbit)) rfl) fun _ =>
      ite (fun _ => ok rfl rfl) fun _ => error
  case h_2 =>
    exact ite (fun _ => operand fun _ hsrc => ite (fun _ => ok hsrc rfl) fun _ => ok hsrc rfl) fun _ => error
  case h_3 => exact ite (fun _ => ok rfl rfl) fun _ => error
  case h_4 =>
    exact ite (fun _ => ok rfl rfl) fun _ => ite (fun _ => ok rfl rfl) fun _ =>
      ite (fun _ => ok rfl rfl) fun _ => ite (fun _ => ok rfl rfl) fun _ => error
  case h_5 => exact ite (fun _ => squareRows w) fun _ => error

/-- The one-word rows give only well-formed instructions of one word (R170). -/
theorem oneWord : Gives 1 (decodeOne w) := by
  unfold decodeOne
  split
  case h_1 => exact rows0 w
  case h_2 => exact ok rfl rfl
  case h_3 => exact ite (fun _ => ok rfl rfl) fun _ => error
  case h_4 => exact rows4 w
  case h_5 => exact rows7 w
  case h_6 => exact rows8 w
  case h_7 => exact rowsA w
  case h_8 => exact rowsB w
  case h_9 => exact rowsC w
  case h_10 => exact rowsD w
  case h_11 => exact rowsF w
  case h_12 => exact error

/-- The two-word rows give only well-formed instructions of two words (R151, R170). -/
theorem twoWords (w1 w2 : ProgWord) : Gives 2 (decodeTwo w1 w2) := by
  unfold decodeTwo
  split
  case h_1 | h_2 => exact ite (fun _ => error) fun _ => ite (fun _ => ok (targetOf_even w1 w2) rfl) fun _ => error
  case h_3 =>
    exact ite (fun _ => ite (fun _ => ok rfl rfl) fun _ => ite (fun _ => ok rfl rfl) fun _ => error) fun _ => error
  case h_4 => exact error

end

end Gives

theorem exceptMap_eq_ok {α β : Type} {f : α → β} {x : Except Reject α} {b : β} (h : x.map f = .ok b) :
    ∃ a, x = .ok a ∧ f a = b := by
  cases x with
  | error r => cases h
  | ok a => exact ⟨a, rfl, Except.ok.inj h⟩

/-- Bytes that decode begin with the words of one row (R151, log 3). -/
theorem decode_eq_ok {bs rest : List Byte} {i : Instr} (h : decode bs = .ok (i, rest)) :
    (∃ w, decodeOne w = .ok i ∧ bs = bytesOfWord w ++ rest) ∨
    ∃ w1 w2, decodeTwo w1 w2 = .ok i ∧ bs = bytesOfWord w1 ++ (bytesOfWord w2 ++ rest) := by
  unfold decode at h
  split at h
  case h_2 => cases h
  case h_1 b0 b1 b2 bs1 =>
    dsimp only at h
    split at h
    case isFalse =>
      obtain ⟨j, hj, hpair⟩ := exceptMap_eq_ok h
      cases hpair
      exact .inl ⟨_, hj, by rw [bytesOfWord_wordOfBytes]; rfl⟩
    case isTrue =>
      split at h
      case h_2 => cases h
      case h_1 c0 c1 c2 bs2 =>
        obtain ⟨j, hj, hpair⟩ := exceptMap_eq_ok h
        cases hpair
        exact .inr ⟨_, _, hj, by rw [bytesOfWord_wordOfBytes, bytesOfWord_wordOfBytes]; rfl⟩

end Sys2Proof

namespace Sys2Proof.Proofs

open Sys2Proof.Machine

/-- Settles O1. The words of an instruction read back by `decodeOne_encode` or `decodeTwo_encode`, and the length that
the first one announces is that of the row. -/
theorem decodeEncode : Obligations.DecodeEncode := by
  intro i rest hw
  rcases encode_one_or_two i with ⟨w, e⟩ | ⟨w1, w2, e⟩
  · simpa [encodeBytes, e] using decode_bytesOfWord_one (decodeOne_encode hw e) rest
  · simpa [encodeBytes, e] using decode_bytesOfWord_two (decodeTwo_encode hw e) rest

/-- Settles O2. Bytes that decode begin with the words of one row, and `Gives` says what the rows can give. -/
theorem decodeWellFormed : Obligations.DecodeWellFormed := by
  intro bs rest i h
  rcases decode_eq_ok h with ⟨w, hd, rfl⟩ | ⟨w1, w2, hd, rfl⟩
  · obtain ⟨hwf, hwords⟩ := Gives.oneWord w i hd
    refine ⟨hwf, ?_⟩
    simp only [List.length_append, length_bytesOfWord]
    omega
  · obtain ⟨hwf, hwords⟩ := Gives.twoWords w1 w2 i hd
    refine ⟨hwf, ?_⟩
    simp only [List.length_append, length_bytesOfWord]
    omega

/-- Settles O3, by running the decoder on each word. -/
theorem handWordsDecode : Obligations.HandWordsDecode := by
  refine ⟨?nop, ?call, ?movLit16, ?mov, ?push, ?addReg, ?divSW, ?repeatLit⟩
  all_goals decide

/-- Settles O60. The meaning of each of these forms is its refusal, on every state. -/
theorem formsWithoutRule : Obligations.FormsWithoutRule := by
  intro s b d byte toFile o f k5 k10 bit k
  exact ⟨rfl, rfl, rfl, rfl, rfl, rfl, rfl⟩

end Sys2Proof.Proofs
end

section
/-! Family 40_mcu_move_stack. The moves between operands, file registers and register pairs, the two-operand frame, the
stack instructions, and the byte extensions (spec/40_mcu_move_stack.md). -/

namespace Sys2Proof.Machine

/-! ### Refusals -/

theorem refuseConflict_ok {c : Bool} (h : c = false) (s : State) : (refuseConflict c).run s = .ok () s := by
  rw [h]; rfl

theorem refuseConflict_stops {c : Bool} (h : c = true) (s : State) :
    (refuseConflict c).run s = .error (.refused .conflictingModification) s := by
  rw [h]; rfl

theorem refuseOdd_ok {r : RegNum} (h : r.getLsbD 0 = false) (s : State) : (refuseOdd r).run s = .ok () s := by
  rw [refuseOdd, h]; rfl

theorem refuseOdd_stops {r : RegNum} (h : r.getLsbD 0 = true) (s : State) :
    (refuseOdd r).run s = .error (.refused .oddPair) s := by
  rw [refuseOdd, h]; rfl

/-! ### Addresses and pointers -/

section
variable {s : State} {step v : Word} {o : Operand}

/-- A form that modifies its pointer leaves the new value in it, bit 0 of W15 staying 0 (R24, R200). -/
theorem readW_modified (h : o.mode.newPointer (s.readW o.reg) step = some v) :
    (s.modified step o).readW o.reg = if o.reg = 15 then evenWord v else v := by
  rw [State.modified, h]
  exact (readW_putWord s o.reg o.reg v).trans (if_pos rfl)

/-- A form that modifies its pointer first addresses what the pointer then holds (R200). -/
theorem effective_pre (b : RegNum) (hpre : o.mode.isPre = true)
    (h : o.mode.newPointer (s.readW o.reg) step = some v) :
    s.effective b step o = if o.reg = 15 then evenWord v else v :=
  (readW_modified_pre b hpre).symm.trans (readW_modified h)

theorem operandChanged_subset (o : Operand) : operandChanged o ⊆ [o.reg] := by
  unfold operandChanged
  split
  · exact List.Subset.refl _
  · exact List.nil_subset _

theorem modified_regsKept (s : State) (step : Word) (o : Operand) : RegsKept s (s.modified step o) [o.reg] :=
  (movePointer_regsKept s step o).mono (operandChanged_subset o)

end

/-! ### Readiness depends on little of the state -/

/-- Where a write reaches RAM depends on the device and on the PSV window alone (R111). -/
theorem SameRest.writable {s t : State} (h : SameRest s t) (byte : Bool) (a : Word) :
    t.writable byte a = s.writable byte a := by
  unfold State.writable State.inRam
  rw [h.dev, h.corcon]

theorem SameRest.stackBad {s t : State} (h : SameRest s t) (ea : Word) (w : Bool) : t.stackBad ea w = s.stackBad ea w :=
  stackBad_congr h.stackLimit.1 h.stackLimit.2 ea w

/-- One read does not change what the next one gives. -/
theorem readable_afterRead (s : State) (byte : Bool) (a c : Word) :
    (s.afterRead a).readable byte c = s.readable byte c := by
  unfold State.afterRead
  split <;> rfl

theorem readValue_afterRead (s : State) (byte : Bool) (a c : Word) :
    (s.afterRead a).readValue byte c = s.readValue byte c := by
  unfold State.afterRead
  split <;> rfl

/-! ### Instructions with two operands -/

section
variable {s t : State} {i : Instr} {w b : RegNum} {byte : Bool} {dst src : Operand}

theorem exec_mov_conflict (hc : conflicts src dst = true) :
    exec (.mov b byte dst src) s = .refused .conflictingModification :=
  outcome_refused (run_bind_error (refuseConflict_stops hc s))

/-- ADD writes the sum to its destination operand and its five flags (R255). -/
theorem exec_addReg_ready (hc : conflicts src dst = false) (hs : s.sourceReady 0 byte src = true)
    (hd : (s.afterSource 0 byte src).destReady 0 byte dst = true) :
    exec (.addReg w byte dst src) s =
      .next (((s.afterSource 0 byte src).withSr (addSr s.sr byte (s.readW w) (s.sourceValue 0 byte src))).afterDest 0
        byte dst (addResult byte (s.readW w) (s.sourceValue 0 byte src))) := by
  show execAddReg w byte dst src s = _
  unfold execAddReg
  refine outcome_ok ?_
  rw [run_bind_ok (refuseConflict_ok hc s), run_bind_ok (run_readW w s), run_bind_ok (readOperand_ready hs),
    run_bind_ok (aluAdd_run _ byte _ _), afterSource_sr,
    writeOperand_ready ((destReady_withSr _ _ 0 byte dst).trans hd)]

/-- A one-bit shift writes the shifted value to its destination operand and C, N, Z (R265 to R267). -/
theorem shiftOperand_ready (k : ShiftKind) (hc : conflicts src dst = false) (hs : s.sourceReady 0 byte src = true)
    (hd : (s.afterSource 0 byte src).destReady 0 byte dst = true) :
    outcome (unaryOp byte dst src (aluShiftOne k byte)) s =
      .next (((s.afterSource 0 byte src).withSr (shiftSr s.sr k byte (s.sourceValue 0 byte src))).afterDest 0 byte dst
        (shiftResult k byte (s.sourceValue 0 byte src))) := by
  unfold unaryOp
  refine outcome_ok ?_
  rw [run_bind_ok (refuseConflict_ok hc s), run_bind_ok (readOperand_ready hs),
    run_bind_ok (aluShiftOne_run _ k byte _), afterSource_sr,
    writeOperand_ready ((destReady_withSr _ _ 0 byte dst).trans hd)]

/-- An addition writes no bit of SR but the five flags (R250, R35). -/
theorem addSr_sameSrRest (s : State) (byte : Bool) (x y : Word) : SameSrRest s (s.withSr (addSr s.sr byte x y)) := by
  cases byte <;> exact ⟨rfl, rfl, rfl, rfl, rfl, rfl⟩

/-- A one-bit shift writes no bit of SR but C, N, Z (R265 to R267). -/
theorem shiftSr_kept (s : State) (k : ShiftKind) (byte : Bool) (x : Word) :
    SameSrRest s (s.withSr (shiftSr s.sr k byte x)) ∧
      (shiftSr s.sr k byte x).dc = s.sr.dc ∧ (shiftSr s.sr k byte x).ov = s.sr.ov := by
  cases byte <;> exact ⟨⟨rfl, rfl, rfl, rfl, rfl, rfl⟩, rfl, rfl⟩

/-- SR as MOV, ADD and the one-bit shifts may leave it: no bit changes but the flags that the instruction writes. -/
structure FlagsOf (s : State) (i : Instr) (byte : Bool) (dst src : Operand) (q : StatusReg) : Prop where
  rest : SameSrRest s (s.withSr q)
  mov : ∀ b, i = .mov b byte dst src → q = s.sr
  notAdd : (∀ w, i ≠ .addReg w byte dst src) → q.dc = s.sr.dc ∧ q.ov = s.sr.ov

theorem flagsOf_shift (k : ShiftKind) (x : Word) (hmov : ∀ b, i ≠ .mov b byte dst src) :
    FlagsOf s i byte dst src (shiftSr s.sr k byte x) where
  rest := (shiftSr_kept s k byte x).1
  mov := fun b h => absurd h (hmov b)
  notAdd := fun _ => (shiftSr_kept s k byte x).2

/-- MOV, ADD and the one-bit shifts read the source, set flags, and write the destination (R201, R210, R255, R265 to
R267). -/
theorem exec_twoOperand_ready
    (hi : i = .mov b byte dst src ∨ b = 0 ∧
      (i = .addReg w byte dst src ∨ i = .slOne byte dst src ∨ i = .lsrOne byte dst src ∨ i = .asrOne byte dst src))
    (hc : conflicts src dst = false) (hs : s.sourceReady b byte src = true)
    (hd : (s.afterSource b byte src).destReady b byte dst = true) :
    ∃ q v, exec i s = .next (((s.afterSource b byte src).withSr q).afterDest b byte dst v) ∧
      FlagsOf s i byte dst src q := by
  rcases hi with rfl | ⟨rfl, rfl | rfl | rfl | rfl⟩
  case inl =>
    have hsr : (s.afterSource b byte src).withSr s.sr = s.afterSource b byte src := by
      rw [← afterSource_sr s b byte src]; rfl
    refine ⟨s.sr, s.sourceValue b byte src, ?_, ⟨rfl, rfl, rfl, rfl, rfl, rfl⟩, fun _ _ => rfl, fun _ => ⟨rfl, rfl⟩⟩
    rw [hsr]
    exact exec_mov_ready hc hs hd
  case inr.inl =>
    exact ⟨_, _, exec_addReg_ready hc hs hd, addSr_sameSrRest s byte _ _, nofun, fun h => absurd rfl (h w)⟩
  case inr.inr.inl => exact ⟨_, _, shiftOperand_ready .sl hc hs hd, flagsOf_shift .sl _ nofun⟩
  case inr.inr.inr.inl => exact ⟨_, _, shiftOperand_ready .lsr hc hs hd, flagsOf_shift .lsr _ nofun⟩
  case inr.inr.inr.inr => exact ⟨_, _, shiftOperand_ready .asr hc hs hd, flagsOf_shift .asr _ nofun⟩

theorem withSr_regsKept (s : State) (q : StatusReg) : RegsKept s (s.withSr q) [] := fun _ _ => ⟨rfl, rfl⟩

/-- A direct destination leaves data RAM as it is (R200). -/
theorem afterDest_data_direct (h : dst.isDirect = true) (s : State) (b : RegNum) (byte : Bool) (v : Word) :
    (s.afterDest b byte dst v).data = s.data := by
  rw [State.afterDest, if_pos h, putReg_data]

/-- An indirect destination changes the bytes at its effective address alone (R200, R111). -/
theorem afterDest_ramKept (h : dst.isDirect = false) (s : State) (b : RegNum) (byte : Bool) (v : Word) :
    RamKeptOutside s (s.afterDest b byte dst v) (s.effective b (stepOf byte) dst).toNat (if byte then 1 else 2) := by
  intro k hk
  rw [State.afterDest, if_neg (Bool.eq_false_iff.1 h), store_ramKept _ byte _ v k hk, State.modified, movePointer_data]

end

/-! ### The byte order of RAM -/

section
variable {s : State}

/-- A stored word has its low byte at its address and its high byte above it (R108). -/
theorem read_store_word (h : s.data.wf = true) (a v : Word) :
    (s.store false a v).data.read a.toNat = v.extractLsb' 0 8 ∧
      (s.store false a v).data.read (a.toNat + 1) = v.extractLsb' 8 8 := by
  refine ⟨?_, Memory.read_write_same (Memory.wf_write h _ _)⟩
  exact (Memory.read_write_other _ (by omega)).trans (Memory.read_write_same h)

theorem read_store_byte (h : s.data.wf = true) (a v : Word) :
    (s.store true a v).data.read a.toNat = v.extractLsb' 0 8 := Memory.read_write_same h

end

/-! ### Register pairs -/

section
variable {s : State} {d : RegNum} {o : Operand}

/-- A register pair as a source (R214). -/
theorem readDouble_direct (hd : o.isDirect = true) (ho : o.reg.getLsbD 0 = false) :
    (readDouble o).run s = .ok (s.readW o.reg, s.readW (o.reg + 1)) s := by
  rw [readDouble, if_pos hd, run_bind_ok (refuseOdd_ok ho s)]
  rfl

/-- A register pair as a destination (R214). -/
theorem writeDouble_direct (hd : o.isDirect = true) (ho : o.reg.getLsbD 0 = false) (lo hi : Word) :
    (writeDouble o lo hi).run s = .ok () ((s.putWord o.reg lo).putWord (o.reg + 1) hi) := by
  rw [writeDouble, if_pos hd, run_bind_ok (refuseOdd_ok ho s)]
  rfl

/-- The second word of a pair in memory passes the stack check where W15 takes part in its address (R503, log 19). -/
def State.secondWordChecked (s : State) (o : Operand) : Prop :=
  (o.usesStack 0 &&
    s.stackBad (s.effective 0 4 o + 2) (decide (2 ^ 16 ≤ (s.effective 0 4 o).toNat + 2))) = false

theorem checkEa_secondWord {t : State} (h : s.secondWordChecked o) (hst : SameRest s t) :
    (checkEa (o.usesStack 0) (s.effective 0 4 o + 2) (decide (2 ^ 16 ≤ (s.effective 0 4 o).toNat + 2))).run t =
      .ok () t :=
  checkEa_ok (by rw [hst.stackBad]; exact h)

/-- Two words of memory as a source (R214). -/
theorem readDouble_indirect (hd : o.isDirect = false) (ha : s.addressable 0 4 o = true) (hc : s.secondWordChecked o)
    (hl : (o.usesStack 0 && s.last.splim) = false)
    (hlo : (s.beforeSourceRead 0 4 o).readable false (s.effective 0 4 o) = true)
    (hhi : (s.beforeSourceRead 0 4 o).readable false (s.effective 0 4 o + 2) = true) :
    (readDouble o).run s =
      .ok ((s.beforeSourceRead 0 4 o).readValue false (s.effective 0 4 o),
          (s.beforeSourceRead 0 4 o).readValue false (s.effective 0 4 o + 2))
        (((s.beforeSourceRead 0 4 o).afterRead (s.effective 0 4 o)).afterRead (s.effective 0 4 o + 2)) := by
  have hst := (beforeSourceRead_sameRest s 0 4 o).trans (afterRead_sameRest _ (s.effective 0 4 o))
  rw [readDouble, if_neg (Bool.eq_false_iff.1 hd), run_bind_ok (sourceAddress_ready ha hl),
    run_bind_ok (memRead_ready hlo), run_bind_ok (checkEa_secondWord hc hst),
    run_bind_ok (memRead_ready ((readable_afterRead _ _ _ _).trans hhi)), readValue_afterRead]
  rfl

/-- Two words of memory as a destination (R113, R214). -/
theorem writeDouble_indirect (hd : o.isDirect = false) (ha : s.addressable 0 4 o = true) (hc : s.secondWordChecked o)
    (hlo : s.writable false (s.effective 0 4 o) = true) (hhi : s.writable false (s.effective 0 4 o + 2) = true)
    (lo hi : Word) :
    (writeDouble o lo hi).run s =
      .ok () (((s.modified 4 o).store false (s.effective 0 4 o) lo).store false (s.effective 0 4 o + 2) hi) := by
  have hmod := modified_sameRest s 4 o
  have hst := hmod.trans (store_sameRest _ false (s.effective 0 4 o) lo)
  rw [writeDouble, if_neg (Bool.eq_false_iff.1 hd), run_bind_ok (operandAddress_ready ha),
    run_bind_ok (memWrite_ready ((hmod.writable _ _).trans hlo) lo), run_bind_ok (checkEa_secondWord hc hst),
    memWrite_ready ((hst.writable _ _).trans hhi) hi]

theorem conflictsReg_direct (h : o.isDirect = true) (r : RegNum) : conflictsReg o r = false := by
  have hm : o.mode = .direct := beq_iff_eq.1 h
  simp [conflictsReg, Operand.modifies, hm]

/-- MOV.D loads the two words of its source into the pair (R214). -/
theorem exec_movDLoad {t : State} {lo hi : Word} (hd : d.getLsbD 0 = false) (h0 : conflictsReg o d = false)
    (h1 : conflictsReg o (d + 1) = false) (h : (readDouble o).run s = .ok (lo, hi) t) :
    exec (.movDLoad d o) s = .next ((t.putWord d lo).putWord (d + 1) hi) := by
  show execMovDLoad d o s = _
  unfold execMovDLoad
  refine outcome_ok ?_
  rw [run_bind_ok (refuseOdd_ok hd s), run_bind_ok (refuseConflict_ok (by rw [h0, h1]; rfl) s), run_bind_ok h]
  rfl

/-- MOV.D stores what the pair held before the pointer moved (R214, log 49). -/
theorem exec_movDStore {t : State} (hd : d.getLsbD 0 = false)
    (h : (writeDouble o (s.readW d) (s.readW (d + 1))).run s = .ok () t) : exec (.movDStore o d) s = .next t := by
  show execMovDStore o d s = _
  unfold execMovDStore
  refine outcome_ok ?_
  rw [run_bind_ok (refuseOdd_ok hd s), run_bind_ok (run_readW d s), run_bind_ok (run_readW (d + 1) s), h]

/-- The destination pair of a load, and the pair that a store reads, starts at an even register (U6). -/
theorem exec_movD_oddRegister (hd : d.getLsbD 0 = true) :
    exec (.movDLoad d o) s = .refused .oddPair ∧ exec (.movDStore o d) s = .refused .oddPair :=
  ⟨outcome_refused (run_bind_error (refuseOdd_stops hd s)), outcome_refused (run_bind_error (refuseOdd_stops hd s))⟩

/-- A direct operand of MOV.D is a pair that starts at an even register (U6). -/
theorem exec_movD_oddOperand (hd : d.getLsbD 0 = false) (ho : o.isDirect = true) (hodd : o.reg.getLsbD 0 = true) :
    exec (.movDLoad d o) s = .refused .oddPair ∧ exec (.movDStore o d) s = .refused .oddPair := by
  have hread : (readDouble o).run s = .error (.refused .oddPair) s := by
    rw [readDouble, if_pos ho, run_bind_error (refuseOdd_stops hodd s)]
  have hwrite : ∀ lo hi, (writeDouble o lo hi).run s = .error (.refused .oddPair) s := fun lo hi => by
    rw [writeDouble, if_pos ho, run_bind_error (refuseOdd_stops hodd s)]
  have hc : (conflictsReg o d || conflictsReg o (d + 1)) = false := by
    rw [conflictsReg_direct ho, conflictsReg_direct ho]; rfl
  refine ⟨outcome_refused (t := s) ((run_bind_ok (refuseOdd_ok hd s)).trans ?load),
    outcome_refused (t := s) ((run_bind_ok (refuseOdd_ok hd s)).trans ?store)⟩
  case load => rw [run_bind_ok (refuseConflict_ok hc s), run_bind_error hread]
  case store => rw [run_bind_ok (run_readW d s), run_bind_ok (run_readW (d + 1) s), hwrite]

end

/-! ### The stack -/

section
variable {s : State} {v : Word}

theorem exec_push_ready (r : RegNum) (h : s.pushReady = true) : exec (.push r) s = .next (s.pushed (s.readW r)) :=
  outcome_ok (push_ready h (s.readW r))

theorem exec_pop_ready {d : RegNum} (hd : d ≠ 15) (h : s.popReady = true) :
    exec (.pop d) s = .next (s.popped.putWord d s.popValue) :=
  outcome_ok <| (run_bind_ok (refuseConflict_ok (beq_eq_false_iff_ne.2 hd) s)).trans (run_bind_ok (pop_ready h))

/-- POP W15 would modify its own destination (R201, log 17). -/
theorem exec_pop_w15 (s : State) : exec (.pop 15) s = .refused .conflictingModification := by
  show execPop 15 s = _
  unfold execPop
  exact outcome_refused (run_bind_error (refuseConflict_stops (beq_self_eq_true _) s))

/-- A push moves W15 up by two, its bit 0 staying 0 (R24, R130). -/
theorem pushed_readW_15 (s : State) (v : Word) : (s.pushed v).readW 15 = evenWord (s.readW 15 + 2) :=
  readW_putWord _ 15 15 _

theorem pushed_regsKept (s : State) (v : Word) : RegsKept s (s.pushed v) [15] := putWord_regsKept _ 15 _

/-- A push changes the two bytes at W15 alone (R130). -/
theorem pushed_ramKept (s : State) (v : Word) : RamKeptOutside s (s.pushed v) (s.readW 15).toNat 2 :=
  store_ramKept s false (s.readW 15) v

/-- The pushed word lies where W15 pointed (R130). -/
theorem pushed_load (h : s.data.wf = true) (v : Word) : (s.pushed v).load false (s.readW 15) = v :=
  load_store_word h (s.readW 15) v

/-- A pop moves W15 down by two, its bit 0 staying 0 (R24, R131). -/
theorem popped_readW_15 (s : State) : s.popped.readW 15 = evenWord (s.readW 15 - 2) :=
  (readW_afterRead _ _ 15).trans (readW_putWord _ 15 15 _)

theorem popped_regsKept (s : State) : RegsKept s s.popped [15] := fun r hr => by
  obtain ⟨hread, hinit⟩ := putWord_regsKept (s.markSrcEa 15) 15 (s.readW 15 - 2) r hr
  exact ⟨(readW_afterRead _ _ r).trans hread, (initialised_afterRead _ _ r).trans hinit⟩

@[simp] theorem popped_sr (s : State) : s.popped.sr = s.sr := afterRead_sr _ _

@[simp] theorem popped_data (s : State) : s.popped.data = s.data := afterRead_data _ _

/-- The state after PUSH.S (R222). -/
def State.shadowsSaved (s : State) : State :=
  { s with
    wShadow := #v[s.readW 0, s.readW 1, s.readW 2, s.readW 3]
    srShadow := { dc := s.sr.dc, n := s.sr.n, ov := s.sr.ov, z := s.sr.z, c := s.sr.c } }

/-- W0 to W3 as POP.S leaves them (R223). -/
def State.regsRestored (s : State) : State :=
  (((s.putWord 0 s.wShadow[0]).putWord 1 s.wShadow[1]).putWord 2 s.wShadow[2]).putWord 3 s.wShadow[3]

/-- SR with the five flags of the shadow (R223). -/
def State.srRestored (s : State) : StatusReg :=
  { s.sr with dc := s.srShadow.dc, n := s.srShadow.n, ov := s.srShadow.ov, z := s.srShadow.z, c := s.srShadow.c }

theorem exec_pushS (s : State) : exec .pushS s = .next s.shadowsSaved := rfl

theorem exec_popS (s : State) : exec .popS s = .next (s.regsRestored.withSr s.srRestored) := rfl

theorem shadowsSaved_sameRest (s : State) :
    SameRest s { s.shadowsSaved with wShadow := s.wShadow, srShadow := s.srShadow } := by
  constructor <;> simp [State.shadowsSaved]

theorem regsRestored_readW (s : State) :
    s.regsRestored.readW 0 = s.wShadow[0] ∧ s.regsRestored.readW 1 = s.wShadow[1] ∧
      s.regsRestored.readW 2 = s.wShadow[2] ∧ s.regsRestored.readW 3 = s.wShadow[3] := by
  simp [State.regsRestored, readW_putWord]

theorem regsRestored_initialised (s : State) {r : RegNum} (h : r.toNat < 4) : s.regsRestored.initialised r = true := by
  have hr : r = 0 ∨ r = 1 ∨ r = 2 ∨ r = 3 := by bv_omega
  rcases hr with rfl | rfl | rfl | rfl <;> simp [State.regsRestored, initialised_putWord]

theorem regsRestored_sameRest (s : State) : SameRest s s.regsRestored :=
  (((putWord_sameRest s 0 _).trans (putWord_sameRest _ 1 _)).trans (putWord_sameRest _ 2 _)).trans
    (putWord_sameRest _ 3 _)

theorem regsRestored_regsKept (s : State) : RegsKept s s.regsRestored [0, 1, 2, 3] :=
  (((putWord_regsKept s 0 _).trans (putWord_regsKept _ 1 _)).trans (putWord_regsKept _ 2 _)).trans
    (putWord_regsKept _ 3 _)

end

/-! ### SE and ZE -/

section
variable {s : State} {d : RegNum} {src : Operand} {b : Byte}

/-- SE writes the low byte of its source with its sign, and C, N, Z (R230). -/
theorem exec_se_ready (hc : conflictsReg src d = false) (hs : s.sourceReady 0 true src = true)
    (hb : (s.sourceValue 0 true src).extractLsb' 0 8 = b) :
    exec (.se d src) s =
      .next (((s.afterSource 0 true src).withSr (s.sr.withCNZ (!b.msb) b.msb (b == 0))).putWord d
        (b.signExtend 16)) := by
  show execSe d src s = _
  unfold execSe
  refine outcome_ok ?_
  rw [run_bind_ok (refuseConflict_ok hc s), run_bind_ok (readOperand_ready hs), run_bind_ok (run_modSr _ _),
    afterSource_sr, run_writeWord, hb]

/-- ZE writes the low byte of its source with zeros above it, and C, N, Z (R231). -/
theorem exec_ze_ready (hc : conflictsReg src d = false) (hs : s.sourceReady 0 true src = true)
    (hb : (s.sourceValue 0 true src).extractLsb' 0 8 = b) :
    exec (.ze d src) s =
      .next (((s.afterSource 0 true src).withSr (s.sr.withCNZ true false (b == 0))).putWord d (b.setWidth 16)) := by
  show execZe d src s = _
  unfold execZe
  refine outcome_ok ?_
  rw [run_bind_ok (refuseConflict_ok hc s), run_bind_ok (readOperand_ready hs), run_bind_ok (run_modSr _ _),
    afterSource_sr, run_writeWord, hb]

end

end Sys2Proof.Machine

namespace Sys2Proof.Proofs

open Sys2Proof.Machine

/-- Settles O12. The run is `exec_mov_ready`; the forms that modify first address what their pointer then holds. -/
theorem movOperands : Obligations.MovOperands := by
  refine ⟨fun s b byte dst src => ⟨exec_mov_ready, exec_mov_conflict⟩, rfl, rfl, fun s b n step p hp => ?_⟩
  subst hp
  exact ⟨⟨rfl, rfl⟩, ⟨rfl, rfl⟩, ⟨rfl, readW_modified rfl⟩, ⟨rfl, readW_modified rfl⟩,
    ⟨effective_pre b rfl rfl, readW_modified rfl⟩, ⟨effective_pre b rfl rfl, readW_modified rfl⟩,
    fun m => modified_regsKept s step ⟨m, n⟩⟩

/-- Settles O13: every one of these instructions ends in the state of `exec_twoOperand_ready`, whose three parts, the
source read, the new SR and the destination write, each have a frame. -/
theorem operandFrame : Obligations.OperandFrame := by
  intro s t i w b byte dst src hi hc hs hd ht
  obtain ⟨q, v, hexec, hflags⟩ := exec_twoOperand_ready hi hc hs hd
  obtain rfl : _ = t := Host.Outcome.next.inj (hexec.symm.trans ht)
  have hsr : (((s.afterSource b byte src).withSr q).afterDest b byte dst v).sr = q := afterDest_sr _ _ _ _ _
  have hdata : ((s.afterSource b byte src).withSr q).data = s.data := afterSource_data s b byte src
  refine ⟨?rest, ?registers, fun h k => ?ramDirect, fun h k hk => ?ramIndirect, ?srRest, fun h => ?srMov,
    fun h => ?dcOv⟩
  case rest =>
    exact ((afterSource_sameRest s b byte src).trans (withSr_sameRest _ q)).trans (afterDest_sameRest _ b byte dst v)
  case registers =>
    exact (((afterSource_regsKept s b byte src).trans (withSr_regsKept _ q)).trans
      (afterDest_regsKept _ b byte dst v)).mono (by rw [List.append_nil]; exact List.Subset.refl _)
  case ramDirect => rw [afterDest_data_direct h, hdata]
  case ramIndirect => rw [afterDest_ramKept h ((s.afterSource b byte src).withSr q) b byte v k hk, hdata]
  case srRest =>
    unfold SameSrRest
    rw [hsr]
    exact hflags.rest
  case srMov => rw [hsr, hflags.mov b h]
  case dcOv =>
    rw [hsr]
    exact hflags.notAdd h

/-- Settles O14: each move is one memory access that is ready, and a store writes its bytes in rising order. -/
theorem movFiles : Obligations.MovFiles := by
  refine fun s a v f r byte => ⟨fun h => ?load, fun h => ?store, fun h => ?wreg, fun h hwf => ?word, fun h hwf => ?byte⟩
  case load => exact outcome_ok (run_bind_ok (memRead_ready h))
  case store => exact (exec_movToFile a r).trans (outcome_ok (memWrite_ready h _))
  case wreg => exact (exec_movWregToFile f).trans (outcome_ok (memWrite_ready h _))
  case word =>
    obtain ⟨hlow, hhigh⟩ := read_store_word hwf a v
    obtain ⟨-, hvalue, -⟩ := readable_of_writable h
    exact ⟨hlow, hhigh, hvalue⟩
  case byte =>
    obtain ⟨-, hvalue, -⟩ := readable_of_writable h
    exact ⟨read_store_byte hwf a v, hvalue⟩

/-- Settles O16, form by form: the refusals, the pair of registers, and the two words of memory. -/
theorem movDouble : Obligations.MovDouble := by
  refine fun s d o => ⟨fun h => ?odd, fun hd h => ?conflict, fun hd ho hr => ?registers, fun hd ho ha hc => ?memory⟩
  case odd =>
    cases hd : d.getLsbD 0 with
    | true => exact exec_movD_oddRegister hd
    | false =>
      obtain ⟨ho, hodd⟩ := h.resolve_left (Bool.eq_false_iff.1 hd)
      exact exec_movD_oddOperand hd ho hodd
  case conflict =>
    have hc : (conflictsReg o d || conflictsReg o (d + 1)) = true := Bool.or_eq_true_iff.2 h
    exact outcome_refused ((run_bind_ok (refuseOdd_ok hd s)).trans (run_bind_error (refuseConflict_stops hc s)))
  case registers =>
    exact ⟨exec_movDLoad hd (conflictsReg_direct ho d) (conflictsReg_direct ho (d + 1)) (readDouble_direct ho hr),
      exec_movDStore hd (writeDouble_direct ho hr _ _)⟩
  case memory =>
    refine ⟨fun h0 h1 hl hlo hhi => ?load, fun hlo hhi => ?store⟩
    case load => exact exec_movDLoad hd h0 h1 (readDouble_indirect ho ha hc hl hlo hhi)
    case store => exact exec_movDStore hd (writeDouble_indirect ho ha hc hlo hhi _ _)

/-- Settles O22 by the states `pushed` and `popped` and their frames. -/
theorem pushPop : Obligations.PushPop := by
  refine fun s r => ⟨fun h hwf => ?push, fun hr h => ?pop, exec_pop_w15 s⟩
  case push =>
    exact ⟨_, exec_push_ready r h, pushed_load hwf _, pushed_readW_15 s _, pushed_regsKept s _, pushed_ramKept s _,
      pushed_sameRest s _, rfl⟩
  case pop =>
    refine ⟨_, exec_pop_ready hr h, ?value, ?pointer, ?registers, popped_data s,
      (popped_sameRest s).trans (putWord_sameRest _ r _), popped_sr s⟩
    case value => rw [readW_putWord, if_pos rfl, if_neg hr]
    case pointer => rw [readW_putWord, if_neg hr, popped_readW_15]
    case registers => exact ((popped_regsKept s).trans (putWord_regsKept _ r _)).mono (by simp)

/-- Settles O24: LNK and ULNK are a push and a pop that are ready, with the moves between W14 and W15 around them. -/
theorem linkUnlink : Obligations.LinkUnlink := by
  refine fun s k => ⟨fun h => ?link, fun h => ?unlink⟩
  case link =>
    rw [← pushed_readW_15 s (s.readW 14)]
    exact outcome_ok (run_bind_ok (push_ready h (s.readW 14)))
  case unlink => exact outcome_ok (run_bind_ok (pop_ready h))

/-- Settles O26 by `exec_se_ready` and `exec_ze_ready`. -/
theorem byteExtensions : Obligations.ByteExtensions := by
  refine fun s d src b => ⟨fun hc => ?conflict, fun hc hs hb => ?ready⟩
  case conflict =>
    exact ⟨outcome_refused (run_bind_error (refuseConflict_stops hc s)),
      outcome_refused (run_bind_error (refuseConflict_stops hc s))⟩
  case ready => exact ⟨exec_se_ready hc hs hb, exec_ze_ready hc hs hb⟩

/-- Settles O15: one word write, and one byte write, of a register. -/
theorem movLiterals : Obligations.MovLiterals := by
  refine fun s k k8 d =>
    ⟨⟨s.putWord d k, rfl, ?wordValue, ?wordInit, putWord_regsKept s d k, putWord_sameRest s d k, rfl, rfl⟩,
      ⟨s.putByte d k8, rfl, ?byteValue, initialised_putByte s d d k8, putByte_regsKept s d k8,
        putByte_sameRest s d k8, rfl, rfl⟩⟩
  case wordValue => rw [readW_putWord, if_pos rfl]
  case wordInit => rw [initialised_putWord, beq_self_eq_true, Bool.or_true]
  case byteValue => rw [readW_putByte, if_pos rfl]; rfl

/-- Settles O23: PUSH.S copies into the shadows, POP.S writes the four registers and the five flags back. -/
theorem shadowPushPop : Obligations.ShadowPushPop := by
  refine fun s => ⟨⟨_, exec_pushS s, rfl, rfl, shadowsSaved_sameRest s, RegsKept.refl s [], rfl, rfl⟩, ?restore⟩
  obtain ⟨h0, h1, h2, h3⟩ := regsRestored_readW s
  exact ⟨_, exec_popS s, h0, h1, h2, h3, fun _ => regsRestored_initialised s, rfl, rfl, rfl, rfl, rfl,
    ⟨rfl, rfl, rfl, rfl, rfl, rfl⟩, (regsRestored_sameRest s).trans (withSr_sameRest _ _), regsRestored_regsKept s, rfl⟩

end Sys2Proof.Proofs
end

section
/-! Family 41_mcu_alu. ADD, the bit instructions, the shifts and the multiplies: the arithmetic they compute, the runs
of their operand and file register forms, and what they do to a file register that is a CPU register
(spec/41_mcu_alu.md). -/

namespace Sys2Proof.Machine

/-! ### Running operations one after the other -/

theorem outcome_eq_of_run {m m' : M Unit} {s t : State} (h : m.run s = m'.run t) : outcome m s = outcome m' t := by
  unfold outcome
  rw [h]

/-! ### The sum and the flags of an addition -/

section
variable {n : Nat} (a b : BitVec n) (cin : Bool)

theorem addFlags_toNat :
    (addFlags a b cin).value.toNat = (a.toNat + b.toNat + cin.toNat) % 2 ^ n := BitVec.toNat_ofNat _ _

/-- The sum wraps at most once (R250). -/
theorem addFlags_toNat_wraps :
    a.toNat + b.toNat + cin.toNat = (addFlags a b cin).value.toNat ∨
      a.toNat + b.toNat + cin.toNat = (addFlags a b cin).value.toNat + 2 ^ n := by
  have ha := a.isLt
  have hb := b.isLt
  have hc : cin.toNat ≤ 1 := Bool.toNat_le cin
  rw [addFlags_toNat]
  rcases Nat.lt_or_ge (a.toNat + b.toNat + cin.toNat) (2 ^ n) with h | h
  · exact .inl (Nat.mod_eq_of_lt h).symm
  · rw [Nat.mod_eq_sub_mod h, Nat.mod_eq_of_lt (by omega)]
    omega

theorem addFlags_c_iff : (addFlags a b cin).c = true ↔ 2 ^ n ≤ a.toNat + b.toNat + cin.toNat := decide_eq_true_iff

theorem addFlags_dc_iff : (addFlags a b cin).dc = true ↔
    2 ^ (n / 2) ≤ a.toNat % 2 ^ (n / 2) + b.toNat % 2 ^ (n / 2) + cin.toNat := decide_eq_true_iff

theorem addFlags_n_iff : (addFlags a b cin).n = true ↔ (addFlags a b cin).value.toInt < 0 := by
  show (addFlags a b cin).value.msb = true ↔ _
  rw [BitVec.msb_eq_toInt, decide_eq_true_iff]

theorem addFlags_z_iff : (addFlags a b cin).z = true ↔ (addFlags a b cin).value = 0 := beq_iff_eq

/-- OV is a sign that the sum of the signed operands does not have (R250). -/
theorem addFlags_ov_iff (hn : 0 < n) :
    (addFlags a b cin).ov = true ↔
      ¬ (-(2 ^ (n - 1)) ≤ a.toInt + b.toInt + (cin.toNat : Int) ∧
        a.toInt + b.toInt + (cin.toNat : Int) < 2 ^ (n - 1)) := by
  have hov : (addFlags a b cin).ov = true ↔ a.msb = b.msb ∧ (addFlags a b cin).value.msb ≠ a.msb := by
    show (a.msb == b.msb && (addFlags a b cin).value.msb != a.msb) = true ↔ _
    rw [Bool.and_eq_true, beq_iff_eq, bne_iff_ne]
  have hpow : (2 : Nat) ^ n = 2 * 2 ^ (n - 1) := (mul_pow_sub_one (by omega) 2).symm
  have hcast : (2 : Int) ^ (n - 1) = (2 ^ (n - 1) : Nat) := by push_cast; rfl
  have hwraps := addFlags_toNat_wraps a b cin
  have ha := a.isLt
  have hb := b.isLt
  have hv := (addFlags a b cin).value.isLt
  have hc : cin.toNat ≤ 1 := Bool.toNat_le cin
  rw [hov, hcast, BitVec.toInt_eq_toNat_cond, BitVec.toInt_eq_toNat_cond, BitVec.msb_eq_decide, BitVec.msb_eq_decide,
    BitVec.msb_eq_decide]
  generalize 2 ^ (n - 1) = half at *
  simp only [hpow, decide_eq_decide, ne_eq] at *
  split <;> split <;> omega

end

/-! ### The numbers that the shifts compute -/

/-- A count past the width shifts every bit out, so `shiftMany` is the plain shift for every count (R267). -/
theorem shiftMany_sl (a : Word) (k : Nat) : shiftMany .sl a k = a <<< k := by
  show (if 15 < k then 0 else a <<< k) = _
  split
  case isTrue h => exact (BitVec.shiftLeft_eq_zero h).symm
  case isFalse => rfl

/-- As `shiftMany_sl` (R266). -/
theorem shiftMany_lsr (a : Word) (k : Nat) : shiftMany .lsr a k = a >>> k := by
  show (if 15 < k then 0 else a >>> k) = _
  split
  case isTrue h => exact (BitVec.ushiftRight_eq_zero h).symm
  case isFalse => rfl

theorem toInt_sshiftRight_eq_div {n : Nat} (a : BitVec n) (k : Nat) : (a.sshiftRight k).toInt = a.toInt / 2 ^ k := by
  rw [BitVec.toInt_sshiftRight, Int.shiftRight_eq_div_pow]
  norm_cast

/-- ASR by more than 15 bits leaves the sign alone: -1 or 0, the quotient rounded down (R265). -/
theorem toInt_shiftMany_asr (a : Word) (k : Nat) : (shiftMany .asr a k).toInt = a.toInt / 2 ^ k := by
  show (if 15 < k then (if a.msb then 0xFFFF else 0) else a.sshiftRight k).toInt = _
  split
  case isFalse => exact toInt_sshiftRight_eq_div a k
  case isTrue h =>
    have hlow : -2 ^ 15 ≤ a.toInt := BitVec.le_toInt a
    have hhigh : a.toInt < 2 ^ 15 := BitVec.toInt_lt
    have hpow : (2 : Int) ^ 15 ≤ 2 ^ k := pow_le_pow_right₀ (by decide) (by omega)
    rw [BitVec.msb_eq_toInt]
    by_cases hneg : a.toInt < 0
    · rw [decide_eq_true hneg, Int.ediv_eq_neg_one_of_neg_of_le hneg (by omega)]
      rfl
    · rw [decide_eq_false hneg, Int.ediv_eq_zero_of_lt (by omega) (by omega)]
      rfl

section
variable {n : Nat} (a : BitVec n)

theorem toNat_shiftLeft_eq (k : Nat) : (a <<< k).toNat = a.toNat * 2 ^ k % 2 ^ n := by
  rw [BitVec.toNat_shiftLeft, Nat.shiftLeft_eq]

theorem toNat_ushiftRight_eq (k : Nat) : (a >>> k).toNat = a.toNat / 2 ^ k := by
  rw [BitVec.toNat_ushiftRight, Nat.shiftRight_eq_div_pow]

theorem bottomBit_iff : a.getLsbD 0 = true ↔ a.toNat % 2 = 1 := by
  rw [BitVec.getLsbD, Nat.testBit_zero, decide_eq_true_iff]

theorem topBit_iff : a.msb = true ↔ 2 ^ (n - 1) ≤ a.toNat := by rw [BitVec.msb_eq_decide, decide_eq_true_iff]

end

/-! ### Multi-bit shifts -/

theorem shiftCount_eq (v : Word) : shiftCount v = v.toNat % 32 := BitVec.extractLsb'_toNat 0 5 v

/-- A multi-bit shift writes its register and N, Z (R265 to R267). -/
theorem shiftInto_outcome (s : State) (k : ShiftKind) (b d : RegNum) (n : Nat) :
    outcome (shiftInto k b d n) s =
      .next ((s.withSr (s.sr.withNZ (shiftMany k (s.readW b) n).msb (shiftMany k (s.readW b) n == 0))).putWord d
        (shiftMany k (s.readW b) n)) := rfl

/-! ### File register instructions -/

section
variable {s t u : State} {byte toFile : Bool} {f : BitVec 13} {m r : Word} {q : StatusReg} {g : Word → M Word}

/-- A read of a file register leaves the state as it is (R110, R200). -/
theorem memRead_file_ready (h : s.readable byte (fileAddress f) = true) :
    (memRead byte (fileAddress f)).run s = .ok (s.readValue byte (fileAddress f)) s := by
  rw [memRead_ready h, afterRead_fileAddress]

theorem fileOp_run (hread : (memRead byte (fileAddress f)).run s = .ok m t) (hg : (g m).run t = .ok r u) :
    (fileOp byte toFile f g).run s = (writeFileOrWreg byte toFile f r).run u := by
  unfold fileOp
  rw [run_bind_ok hread, run_bind_ok hg]

/-- Where a file register can be written does not depend on SR. -/
theorem fileWritable_withSr (s : State) (q : StatusReg) (byte toFile : Bool) (f : BitVec 13) :
    (s.withSr q).fileWritable byte toFile f = s.fileWritable byte toFile f := rfl

/-- A file register instruction that sets flags and writes WREG or RAM (R256, R265 to R267). -/
theorem fileOp_ready (hr : s.readable byte (fileAddress f) = true) (hw : s.fileWritable byte toFile f = true)
    (hg : (g (s.readValue byte (fileAddress f))).run s = .ok r (s.withSr q)) :
    outcome (fileOp byte toFile f g) s = .next ((s.withSr q).afterFile byte toFile f r) :=
  outcome_ok ((fileOp_run (memRead_file_ready hr) hg).trans
    (writeFileOrWreg_ready ((fileWritable_withSr s q byte toFile f).trans hw) r))

theorem addWreg_run (s : State) (byte : Bool) (m : Word) :
    (readW 0 >>= fun a => aluAdd byte m a).run s =
      .ok (addResult byte m (s.readW 0)) (s.withSr (addSr s.sr byte m (s.readW 0))) :=
  (run_bind_ok (run_readW 0 s)).trans (aluAdd_run s byte m _)

/-- BSET writes the word back with the bit set (R260). -/
theorem exec_bsetFile_run (bit : BitVec 4) (hread : (memRead false (fileAddress f)).run s = .ok m t) :
    exec (.bsetFile bit f) s = outcome (memWrite false (fileAddress f) (m ||| 1#16 <<< bit.toNat)) t :=
  outcome_eq_of_run (run_bind_ok hread)

/-- BCLR writes the word back with the bit cleared (R261). -/
theorem exec_bclrFile_run (bit : BitVec 4) (hread : (memRead false (fileAddress f)).run s = .ok m t) :
    exec (.bclrFile bit f) s = outcome (memWrite false (fileAddress f) (m &&& ~~~(1#16 <<< bit.toNat))) t :=
  outcome_eq_of_run (run_bind_ok hread)

/-- BTSC goes on where the bit is 1 and skips where it is 0 (R262). -/
theorem exec_btscFile_run (bit : BitVec 4) (h : s.readable false (fileAddress f) = true) :
    exec (.btscFile bit f) s =
      if (s.readValue false (fileAddress f)).getLsbD bit.toNat then .next s else outcome skipNext s := by
  have hrun := outcome_eq_of_run (run_bind_ok (memRead_file_ready h)
    (f := fun v => if v.getLsbD bit.toNat then pure () else skipNext))
  refine hrun.trans ?_
  split <;> rfl

end

/-! ### One-bit shifts -/

section
variable {s : State} {byte : Bool} {dst src : Operand}

/-- The operand form of a one-bit shift (R265 to R267). -/
def ShiftKind.operandInstr (k : ShiftKind) (byte : Bool) (dst src : Operand) : Instr :=
  match k with
  | .sl => .slOne byte dst src
  | .lsr => .lsrOne byte dst src
  | .asr => .asrOne byte dst src

theorem exec_shiftOperand (k : ShiftKind) (byte : Bool) (dst src : Operand) (s : State) :
    exec (k.operandInstr byte dst src) s = outcome (unaryOp byte dst src (aluShiftOne k byte)) s := by
  cases k <;> rfl

/-- The file register form of a one-bit shift (R265 to R267). -/
def ShiftKind.fileInstr (k : ShiftKind) (byte toFile : Bool) (f : BitVec 13) : Instr :=
  match k with
  | .sl => .slFile byte toFile f
  | .lsr => .lsrFile byte toFile f
  | .asr => .asrFile byte toFile f

theorem exec_shiftFile (k : ShiftKind) (byte toFile : Bool) (f : BitVec 13) (s : State) :
    exec (k.fileInstr byte toFile f) s = outcome (fileOp byte toFile f (aluShiftOne k byte)) s := by
  cases k <;> rfl

theorem unaryOp_conflict (hc : conflicts src dst = true) (g : Word → M Word) :
    outcome (unaryOp byte dst src g) s = .refused .conflictingModification :=
  outcome_refused (run_bind_error (refuseConflict_stops hc s))

end

/-! ### Skipping the next instruction -/

theorem pcPlus_natCast {pc : PcAddr} {k : Nat} (h : pc.toNat + k < 2 ^ 23) (s : State) :
    (pcPlus pc (k : Int)).run s = .ok (pc + BitVec.ofNat 23 k) s := by
  rw [pcPlus_ok (by omega) (by omega), BitVec.ofInt_add, BitVec.ofInt_natCast, BitVec.ofInt_natCast, BitVec.ofNat_toNat,
    BitVec.setWidth_eq]

theorem evenPc_of_even {a : PcAddr} (h : evenBits a = true) : evenPc a = a := by
  have hmask : ∀ i < 23, (0x7FFFFE : PcAddr).getLsbD i = (i != 0) := by decide
  have h0 : a.getLsbD 0 = false := by simpa [evenBits] using h
  apply BitVec.eq_of_getLsbD_eq
  intro i hi
  rw [evenPc, BitVec.getLsbD_and, hmask i hi]
  rcases Nat.eq_zero_or_pos i with rfl | hpos
  · rw [h0, Bool.false_and]
  · rw [bne_iff_ne.2 hpos.ne', Bool.and_true]

/-- A skip passes over the instruction after this one, of one word or of two (R420). -/
theorem skipNext_outcome {s : State} {n : Nat} (he : evenBits s.pc = true)
    (hn : firstWordLength (s.progWord (s.pc + 2)) = n) (hb : s.pc.toNat + 2 + 2 * n < 2 ^ 23) :
    outcome skipNext s =
      .next { s with cur := { s.cur with jump := some (s.pc + BitVec.ofNat 23 (2 + 2 * n)), skip := n } } := by
  have hnext : (pcPlus s.pc 2).run s = .ok (s.pc + 2) s := pcPlus_natCast (k := 2) (by omega) s
  have htarget : (pcPlus s.pc (2 + 2 * (n : Int))).run s = .ok (s.pc + BitVec.ofNat 23 (2 + 2 * n)) s := by
    have h := pcPlus_natCast (pc := s.pc) (k := 2 + 2 * n) (by omega) s
    push_cast at h
    exact h
  have heven : evenPc (s.pc + BitVec.ofNat 23 (2 + 2 * n)) = s.pc + BitVec.ofNat 23 (2 + 2 * n) := by
    refine evenPc_of_even (evenBits_toNat.2 ?_)
    have h0 := evenBits_toNat.1 he
    rw [BitVec.toNat_add, BitVec.toNat_ofNat]
    omega
  unfold skipNext
  refine outcome_ok ?_
  rw [run_bind_ok (run_getS s), run_bind_ok hnext, hn, run_bind_ok htarget, run_bind_ok (run_jumpTo _ s), heven,
    run_modS]

/-! ### Multiplies -/

section
variable {s : State} {signedB signedS : Bool} {b d : RegNum} {src : Operand} {i : Instr} {p : Int}

/-- The four signednesses of the multiply instruction (R269 to R273). -/
theorem exec_multiply
    (hi : i = .mulUU b d src ∨ i = .mulUS b d src ∨ i = .mulSU b d src ∨ i = .mulSS b d src) :
    ∃ signedB signedS, exec i s = outcome (multiply signedB signedS b d src) s := by
  rcases hi with rfl | rfl | rfl | rfl
  · exact ⟨false, false, rfl⟩
  · exact ⟨false, true, rfl⟩
  · exact ⟨true, false, rfl⟩
  · exact ⟨true, true, rfl⟩

theorem multiply_oddPair (hd : d.getLsbD 0 = true) :
    outcome (multiply signedB signedS b d src) s = .refused .oddPair :=
  outcome_refused (run_bind_error (refuseOdd_stops hd s))

theorem multiply_conflict (hd : d.getLsbD 0 = false)
    (hc : conflictsReg src d = true ∨ conflictsReg src (d + 1) = true) :
    outcome (multiply signedB signedS b d src) s = .refused .conflictingModification :=
  outcome_refused ((run_bind_ok (refuseOdd_ok hd s)).trans
    (run_bind_error (refuseConflict_stops (Bool.or_eq_true_iff.2 hc) s)))

/-- The state with a 32-bit product in a register pair, the low word first (R270). -/
def State.putProduct (s : State) (d : RegNum) (p : Int) : State :=
  (s.putWord d ((BitVec.ofInt 32 p).extractLsb' 0 16)).putWord (d + 1) ((BitVec.ofInt 32 p).extractLsb' 16 16)

theorem run_writeProduct (s : State) (d : RegNum) (p : Int) :
    (writeProduct d p).run s = .ok () (s.putProduct d p) := rfl

theorem multiply_ready (hd : d.getLsbD 0 = false) (h0 : conflictsReg src d = false)
    (h1 : conflictsReg src (d + 1) = false) (hs : s.sourceReady 0 false src = true)
    (hp : mulInput signedB (s.readW b) * mulInput signedS (s.sourceValue 0 false src) = p) :
    outcome (multiply signedB signedS b d src) s = .next ((s.afterSource 0 false src).putProduct d p) := by
  unfold multiply
  refine outcome_ok ?_
  rw [run_bind_ok (refuseOdd_ok hd s), run_bind_ok (refuseConflict_ok (by rw [h0, h1]; rfl) s),
    run_bind_ok (run_readW b s), run_bind_ok (readOperand_ready hs), hp, run_writeProduct]

/-- A product of naturals that fits is read back from its low bits. -/
theorem toNat_product {n x y : Nat} (hp : (x : Int) * y = p) (h : x * y < 2 ^ n) : (BitVec.ofInt n p).toNat = p := by
  rw [← hp, ← Int.natCast_mul, BitVec.ofInt_natCast, BitVec.toNat_ofNat, Nat.mod_eq_of_lt h]

/-- A product of two unsigned words fits the pair (R270). -/
theorem word_product_lt (x y : Word) : x.toNat * y.toNat < 2 ^ 32 :=
  show _ < 2 ^ 16 * 2 ^ 16 from Nat.mul_lt_mul'' x.isLt y.isLt

theorem mulInput_signed_abs (v : Word) : |mulInput true v| ≤ 2 ^ 15 := by
  have hlow : -2 ^ 15 ≤ v.toInt := BitVec.le_toInt v
  have hhigh : v.toInt < 2 ^ 15 := BitVec.toInt_lt
  exact abs_le.2 ⟨hlow, hhigh.le⟩

theorem mulInput_abs (isSigned : Bool) (v : Word) : |mulInput isSigned v| ≤ 2 ^ 16 - 1 := by
  cases isSigned with
  | true => exact (mulInput_signed_abs v).trans (by decide)
  | false =>
    have h := v.isLt
    exact abs_le.2 ⟨by show _ ≤ (v.toNat : Int); omega, by show (v.toNat : Int) ≤ _; omega⟩

/-- A product with a signed operand fits the signed range of the pair (R271 to R273). -/
theorem toInt_product {x y : Word} (h : signedB = true ∨ signedS = true)
    (hp : mulInput signedB x * mulInput signedS y = p) : (BitVec.ofInt 32 p).toInt = p := by
  have hprod : |p| ≤ 2 ^ 15 * (2 ^ 16 - 1) := by
    rw [← hp, abs_mul]
    rcases h with rfl | rfl
    · exact mul_le_mul (mulInput_signed_abs x) (mulInput_abs signedS y) (abs_nonneg _) (by decide)
    · rw [mul_comm]
      exact mul_le_mul (mulInput_signed_abs y) (mulInput_abs signedB x) (abs_nonneg _) (by decide)
  obtain ⟨hlow, hhigh⟩ := abs_le.1 hprod
  exact BitVec.toInt_ofInt_eq_self (by decide) (by omega) (by omega)

theorem readValue_byte_lt (s : State) (a : Word) : (s.readValue true a).toNat < 2 ^ 8 := by
  have hbyte : ∀ v : Byte, (v.setWidth 16).toNat < 2 ^ 8 := fun v => by
    rw [BitVec.toNat_setWidth_of_le (by decide)]
    exact v.isLt
  unfold State.readValue
  split
  · exact hbyte _
  · split <;> exact hbyte _

theorem exec_mulFile_word {f : BitVec 13} (h : s.readable false (fileAddress f) = true)
    (hp : p = (s.readW 0).toNat * (s.readValue false (fileAddress f)).toNat) :
    exec (.mulFile false f) s = .next (s.putProduct 2 p) := by
  subst hp
  exact outcome_ok (run_bind_ok (memRead_file_ready h))

theorem exec_mulFile_byte {f : BitVec 13} (h : s.readable true (fileAddress f) = true) :
    exec (.mulFile true f) s =
      .next (s.putWord 2
        (BitVec.ofNat 16 ((sized true (s.readW 0)).toNat * (s.readValue true (fileAddress f)).toNat))) :=
  outcome_ok (run_bind_ok (memRead_file_ready h))

theorem toNat_sized_byte (v : Word) : (sized true v).toNat = v.toNat % 256 := by
  show ((v.extractLsb' 0 8).setWidth 16).toNat = _
  rw [BitVec.toNat_setWidth_of_le (by decide)]
  exact BitVec.extractLsb'_toNat 0 8 v

end

/-! ### A CPU register as the file register -/

section
variable {s t : State} {x y : Sfr} {a v e old cur m : Word} {byte word : Bool} {f : BitVec 13} {q : StatusReg}

/-- SR as read determines SR: each stored bit has its place in the word (R35). -/
theorem sr_eq_of_srWord (h : t.srWord = s.srWord) : t.sr = s.sr := by
  obtain ⟨toa, tob, tsa, tsb, -, -, -, tdc, tra, tn, tov, tz, tc⟩ := srWord_bits t
  obtain ⟨soa, sob, ssa, ssb, -, -, -, sdc, sra, sn, sov, sz, sc⟩ := srWord_bits s
  have tipl := srWord_ipl t
  have sipl := srWord_ipl s
  rw [h] at toa tob tsa tsb tdc tra tn tov tz tc tipl
  calc t.sr = ⟨t.sr.oa, t.sr.ob, t.sr.sa, t.sr.sb, t.sr.dc, t.sr.ipl, t.sr.ra, t.sr.n, t.sr.ov, t.sr.z, t.sr.c⟩ := rfl
    _ = s.sr := by
      rw [← toa, ← tob, ← tsa, ← tsb, ← tdc, ← tipl, ← tra, ← tn, ← tov, ← tz, ← tc, soa, sob, ssa, ssb, sdc, sipl, sra,
        sn, sov, sz, sc]

/-- A write of a CPU register other than SR leaves SR as it is (R111). -/
theorem SfrWritten.sr (h : SfrWritten s x e word t) (hx : x ≠ .sr) : t.sr = s.sr :=
  sr_eq_of_srWord (Option.some.inj (h.others .sr hx.symm))

theorem stored_ne_sr (h : x.stored v = some e) : x ≠ .sr := by
  rintro rfl
  cases h

/-- New flags show in no CPU register but SR (R35). -/
theorem sfrView_withSr (hy : y ≠ .sr) (s : State) (q : StatusReg) : (s.withSr q).sfrView y = s.sfrView y := by
  cases y with
  | sr => exact absurd rfl hy
  | _ => rfl

/-- A write of either size to the address of a CPU register runs the register's write rule, on the whole word or on one lane
(R111). -/
theorem memWrite_sfr_run (ha : byte = true ∨ a.getLsbD 0 = false) (hx : sfrAt s.dev a = some x) (v : Word) :
    (memWrite byte a v).run s =
      (writeSfr x (if byte then withLane a ((s.sfrView x).getD 0) (v.extractLsb' 0 8) else v) (!byte)).run s := by
  cases byte with
  | false => exact memWrite_sfr (by simpa using ha) hx
  | true =>
    unfold memWrite
    simp only [Bool.not_true, Bool.false_and, run_bind, run_addressErrorIf_false, run_getS, hx, if_true]

theorem memWrite_pc_refused (ha : byte = true ∨ a.getLsbD 0 = false) (hx : sfrAt s.dev a = some x)
    (hpc : x = .pcl ∨ x = .pch) (v : Word) : outcome (memWrite byte a v) s = .refused .pcWrite :=
  outcome_refused ((memWrite_sfr_run ha hx v).trans (writeSfr_pc_refused hpc))

/-- A read of PCL or PCH goes on with a free value (log 20). -/
theorem memRead_pc (ha : byte = true ∨ a.getLsbD 0 = false) (hx : sfrAt s.dev a = some x)
    (hpc : x = .pcl ∨ x = .pch) : ∃ m t, (memRead byte a).run s = .ok m t ∧ t.dev = s.dev := by
  have halign : (!byte && a.getLsbD 0) = false := by
    rcases ha with h | h <;> rw [h]
    · rfl
    · exact Bool.and_false _
  obtain ⟨m, hread⟩ : ∃ m, (readSfr x).run s = .ok m { s with free := s.free + 1 } := by
    rcases hpc with rfl | rfl <;> exact ⟨_, rfl⟩
  refine ⟨laneOrWord byte a m, { s with free := s.free + 1 }, ?_, rfl⟩
  unfold memRead
  simp only [halign, run_bind, run_addressErrorIf_false, run_getS, hx, hread, run_pure]

theorem fileAddress_bit0 (f : BitVec 13) : (fileAddress f).getLsbD 0 = f.getLsbD 0 := by
  rw [fileAddress, BitVec.getLsbD_setWidth]
  rfl

/-- The word or the byte lane that a read of a CPU register gives (R110). -/
theorem readValue_file_sfr (hx : sfrAt s.dev (fileAddress f) = some x) (hold : s.sfrView x = some old) :
    s.readValue byte (fileAddress f) =
      if byte then (if f.getLsbD 0 then old.extractLsb' 8 8 else old.extractLsb' 0 8).setWidth 16 else old := by
  unfold State.readValue
  simp only [hx, hold, Option.getD_some, laneOrWord, lane, fileAddress_bit0]

/-- The word that a file register instruction writes to a CPU register that reads as `cur` (R108, R111). -/
theorem memWrite_file_sfr (ha : byte = true ∨ (fileAddress f).getLsbD 0 = false)
    (hx : sfrAt s.dev (fileAddress f) = some x) (hcur : s.sfrView x = some cur) (v : Word) :
    (memWrite byte (fileAddress f) v).run s =
      (writeSfr x (if byte then (if f.getLsbD 0 then v.extractLsb' 0 8 ++ cur.extractLsb' 0 8
        else cur.extractLsb' 8 8 ++ v.extractLsb' 0 8) else v) (!byte)).run s := by
  rw [memWrite_sfr_run ha hx, hcur, Option.getD_some, withLane_fileAddress]

/-- An instruction that reads a file register, sets SR and writes the file register back: `value` and `status` give the
word and SR from the state after the read and what was read (R256, R260, R261, R265 to R267). -/
def UpdatesFile (i : Instr) (byte : Bool) (f : BitVec 13) (value : State → Word → Word)
    (status : State → Word → StatusReg) : Prop :=
  ∀ s t m, (memRead byte (fileAddress f)).run s = .ok m t →
    exec i s = outcome (memWrite byte (fileAddress f) (value t m)) (t.withSr (status t m))

theorem addFile_updatesFile (byte : Bool) (f : BitVec 13) :
    UpdatesFile (.addFile byte true f) byte f (fun t m => addResult byte m (t.readW 0))
      fun t m => addSr t.sr byte m (t.readW 0) :=
  fun _ t m hread => outcome_eq_of_run (fileOp_run hread (addWreg_run t byte m))

theorem shiftFile_updatesFile (k : ShiftKind) (byte : Bool) (f : BitVec 13) :
    UpdatesFile (k.fileInstr byte true f) byte f (fun _ m => shiftResult k byte m) fun t m => shiftSr t.sr k byte m :=
  fun s t m hread =>
    (exec_shiftFile k byte true f s).trans (outcome_eq_of_run (fileOp_run hread (aluShiftOne_run t k byte m)))

theorem bsetFile_updatesFile (bit : BitVec 4) (f : BitVec 13) :
    UpdatesFile (.bsetFile bit f) false f (fun _ m => m ||| 1#16 <<< bit.toNat) fun t _ => t.sr :=
  fun _ _ _ hread => exec_bsetFile_run bit hread

theorem bclrFile_updatesFile (bit : BitVec 4) (f : BitVec 13) :
    UpdatesFile (.bclrFile bit f) false f (fun _ m => m &&& ~~~(1#16 <<< bit.toNat)) fun t _ => t.sr :=
  fun _ _ _ hread => exec_bclrFile_run bit hread

end

end Sys2Proof.Machine

namespace Sys2Proof.Proofs

open Sys2Proof.Machine

/-- Settles O20. The instruction ends in the write rule of the register, applied after the flags (`UpdatesFile`,
`memWrite_file_sfr`); each clause is what that rule does with the word. -/
theorem fileOpsOnRegisters : Obligations.FileOpsOnRegisters := by
  intro s f x byte old cur m v w bit q i hx halign hm hi
  obtain ⟨value, status, hupdates, rfl, rfl⟩ :
      ∃ value status, UpdatesFile i byte f value status ∧ v = value s m ∧ q = status s m := by
    rcases hi with ⟨rfl, hv, hq⟩ | ⟨rfl, hv, hq⟩ | ⟨rfl, hv, hq⟩ | ⟨rfl, hv, hq⟩ | ⟨rfl, rfl, hv, hq⟩ |
      ⟨rfl, rfl, hv, hq⟩
    · exact ⟨_, _, addFile_updatesFile byte f, hv, hq⟩
    · exact ⟨_, _, shiftFile_updatesFile .sl byte f, hv, hq⟩
    · exact ⟨_, _, shiftFile_updatesFile .lsr byte f, hv, hq⟩
    · exact ⟨_, _, shiftFile_updatesFile .asr byte f, hv, hq⟩
    · exact ⟨_, _, bsetFile_updatesFile bit f, hv, hq⟩
    · exact ⟨_, _, bclrFile_updatesFile bit f, hv, hq⟩
  rw [← fileAddress_bit0] at halign
  refine ⟨fun hpc => ?pc, fun hread hold hcur hw => ?write⟩
  case pc =>
    obtain ⟨m', t, hrun, hdev⟩ := memRead_pc halign hx hpc
    rw [hupdates s t m' hrun]
    exact memWrite_pc_refused halign (hdev ▸ hx) hpc _
  case write =>
    have hvalue : s.readValue byte (fileAddress f) = m := (readValue_file_sfr hx hold).trans hm.symm
    have hexec : exec i s = outcome (writeSfr x w (!byte)) (s.withSr (status s m)) := by
      rw [hupdates s s m (hvalue ▸ memRead_file_ready hread), hw]
      exact outcome_eq_of_run (memWrite_file_sfr (s := s.withSr (status s m)) halign hx hcur _)
    rw [hexec]
    refine ⟨fun e he => ?stored, ?sr, ?corcon, ?corconStatus, ?modcon, ?xbrev⟩
    case stored =>
      obtain ⟨t, hrun, hwritten⟩ := writeSfr_stored (s := s.withSr (status s m)) (word := !byte) he
      exact ⟨t, outcome_ok hrun, hwritten.view,
        fun y hy hsr => (hwritten.others y hy).trans (sfrView_withSr hsr s _), hwritten.sr (stored_ne_sr he),
        hwritten.noted.data⟩
    case sr =>
      rintro rfl
      exact ⟨_, outcome_ok (run_writeSr w _), rfl, rfl⟩
    case corcon =>
      rintro rfl hdl hipl
      exact ⟨_, outcome_ok (run_writeCorcon hdl hipl), CoreControl.word_written hdl hipl, rfl, rfl⟩
    case corconStatus =>
      rintro rfl h
      exact outcome_refused (writeCorcon_refused h)
    case modcon =>
      rintro rfl h
      exact outcome_refused (writeSfr_modcon_refused h)
    case xbrev =>
      rintro rfl h
      exact outcome_refused (writeSfr_xbrev_refused h)

/-- Settles O27 by `exec_addReg_ready`; a conflict stops the instruction first. -/
theorem addRegister : Obligations.AddRegister := fun s _ _ _ _ =>
  ⟨fun hc => outcome_refused (run_bind_error (refuseConflict_stops hc s)), exec_addReg_ready⟩

/-- Settles O28: the file register instruction whose computation is an addition of WREG. -/
theorem addFile : Obligations.AddFile := fun s byte _ _ hr hw => fileOp_ready hr hw (addWreg_run s byte _)

/-- Settles O29 by one lemma for each flag. -/
theorem addFlagsExact : Obligations.AddFlagsExact := by
  refine ⟨fun n a b cin hn => ?_, ?places⟩
  · have hpos : 0 < n := by omega
    exact ⟨addFlags_toNat a b cin, addFlags_c_iff a b cin, addFlags_dc_iff a b cin, addFlags_n_iff a b cin,
      addFlags_ov_iff a b cin hpos, addFlags_z_iff a b cin⟩
  case places =>
    rintro r a b x y rfl rfl
    exact ⟨rfl, rfl, rfl, rfl⟩

/-- Settles O30: BSET and BCLR are a read and a write of RAM, BTSC is a read and, on a bit that is 0, a skip. -/
theorem bitInstructions : Obligations.BitInstructions := by
  refine fun s bit f n => ⟨fun h => ?ram, fun h => ⟨fun hbit => ?goesOn, fun hbit he hn hb => ?skips⟩⟩
  case ram =>
    obtain ⟨hread, hvalue, -⟩ := readable_of_writable h
    have hrun := memRead_file_ready hread
    rw [hvalue] at hrun
    exact ⟨(exec_bsetFile_run bit hrun).trans (outcome_ok (memWrite_ready h _)),
      (exec_bclrFile_run bit hrun).trans (outcome_ok (memWrite_ready h _))⟩
  case goesOn => rw [exec_btscFile_run bit h, if_pos hbit]
  case skips => rw [exec_btscFile_run bit h, hbit, if_neg Bool.false_ne_true, skipNext_outcome he hn hb]

/-- Settles O31: each kind of shift is `unaryOp` or `fileOp` with the shift as its computation. -/
theorem shiftOneBit : Obligations.ShiftOneBit := by
  refine fun s k byte toFile dst src f i => ⟨fun hi hc => ?conflict, fun hi hc hs hd => ?operand, fun hi hr hw => ?file⟩
  case conflict =>
    rcases hi with rfl | rfl | rfl <;> exact unaryOp_conflict hc _
  case operand =>
    obtain rfl : i = k.operandInstr byte dst src := by rcases hi with ⟨rfl, rfl⟩ | ⟨rfl, rfl⟩ | ⟨rfl, rfl⟩ <;> rfl
    exact (exec_shiftOperand k byte dst src s).trans (shiftOperand_ready k hc hs hd)
  case file =>
    obtain rfl : i = k.fileInstr byte toFile f := by rcases hi with ⟨rfl, rfl⟩ | ⟨rfl, rfl⟩ | ⟨rfl, rfl⟩ <;> rfl
    exact (exec_shiftFile k byte toFile f s).trans (fileOp_ready hr hw (aluShiftOne_run s k byte _))

/-- Settles O33: every shift is the plain shift of its kind, which multiplies or divides by a power of 2. -/
theorem shiftsExact : Obligations.ShiftsExact := by
  refine ⟨fun a k => ⟨?sl, ?lsr, toInt_shiftMany_asr a k⟩, fun n a _ => ?oneBit, ?places⟩
  case sl => rw [shiftMany_sl, toNat_shiftLeft_eq]
  case lsr => rw [shiftMany_lsr, toNat_ushiftRight_eq]
  case oneBit =>
    exact ⟨toNat_shiftLeft_eq a 1, toNat_ushiftRight_eq a 1, toInt_sshiftRight_eq_div a 1, topBit_iff a,
      bottomBit_iff a, bottomBit_iff a⟩
  case places =>
    rintro r k a x y rfl rfl
    exact ⟨rfl, rfl, rfl, rfl⟩

/-- Settles O34: the run is `multiply_ready`, and the product of two words fits the pair, signed or unsigned. -/
theorem multiplies : Obligations.Multiplies := by
  refine fun s b d src f i p => ⟨fun hd hi => ?odd, fun hd hc hi => ?conflict, fun hi hd h0 h1 hs => ?product,
    fun h hp => ?fileWord, fun h hp => ?fileByte⟩
  case odd =>
    obtain ⟨signedB, signedS, hexec⟩ := exec_multiply (s := s) hi
    exact hexec.trans (multiply_oddPair hd)
  case conflict =>
    obtain ⟨signedB, signedS, hexec⟩ := exec_multiply (s := s) hi
    exact hexec.trans (multiply_conflict hd hc)
  case product =>
    rcases hi with ⟨rfl, hp⟩ | ⟨rfl, hp⟩ | ⟨rfl, hp⟩ | ⟨rfl, hp⟩
    · exact ⟨multiply_ready (signedB := false) (signedS := false) hd h0 h1 hs hp.symm,
        fun _ => toNat_product hp.symm (word_product_lt _ _), fun h => absurd rfl h⟩
    · exact ⟨multiply_ready (signedB := false) (signedS := true) hd h0 h1 hs hp.symm, nofun,
        fun _ => toInt_product (signedB := false) (signedS := true) (.inr rfl) hp.symm⟩
    · exact ⟨multiply_ready (signedB := true) (signedS := false) hd h0 h1 hs hp.symm, nofun,
        fun _ => toInt_product (signedB := true) (signedS := false) (.inl rfl) hp.symm⟩
    · exact ⟨multiply_ready (signedB := true) (signedS := true) hd h0 h1 hs hp.symm, nofun,
        fun _ => toInt_product (signedB := true) (signedS := true) (.inl rfl) hp.symm⟩
  case fileWord => exact ⟨exec_mulFile_word h hp, toNat_product hp.symm (word_product_lt _ _)⟩
  case fileByte =>
    have hfits : (s.readW 0).toNat % 256 * (s.readValue true (fileAddress f)).toNat < 2 ^ 16 :=
      show _ < 2 ^ 8 * 2 ^ 8 from Nat.mul_lt_mul'' (Nat.mod_lt _ (by decide)) (readValue_byte_lt s _)
    refine ⟨?_, toNat_product hp.symm hfits⟩
    rw [exec_mulFile_byte h, toNat_sized_byte, hp, ← Int.natCast_mul, BitVec.ofInt_natCast]

/-- Settles O32: both forms of each kind are `shiftInto` with their count. -/
theorem shiftManyBits : Obligations.ShiftManyBits := by
  rintro s b d r k n v i kind hi rfl
  rcases hi with ⟨hi, rfl⟩ | ⟨hi, rfl⟩
  case inl => rcases hi with ⟨rfl, rfl⟩ | ⟨rfl, rfl⟩ | ⟨rfl, rfl⟩ <;> exact shiftInto_outcome s _ b d k.toNat
  case inr =>
    rw [← shiftCount_eq]
    rcases hi with ⟨rfl, rfl⟩ | ⟨rfl, rfl⟩ | ⟨rfl, rfl⟩ <;> exact shiftInto_outcome s _ b d _

end Sys2Proof.Proofs
end

section
/-! Family 42_dsp_engine. The accumulator write with its modes and traps, the store value, the loads and the shift of an
accumulator, and the MAC class, ED and EDAC with their prefetches and write-back (spec/42_dsp_engine.md). -/

namespace Sys2Proof.Machine

/-! ### What an accumulator write decides -/

section
variable (t : Int)

theorem fits_32 : fits 32 t = decide (-(2 ^ 31) ≤ t ∧ t ≤ 2 ^ 31 - 1) := (Bool.decide_and _ _).symm

theorem fits_40 : fits 40 t = decide (-(2 ^ 39) ≤ t ∧ t ≤ 2 ^ 39 - 1) := (Bool.decide_and _ _).symm

/-- 31-bit saturation (R333). -/
theorem accResult_sat31 :
    accResult true false t =
      { value :=
          if -(2 ^ 31) ≤ t ∧ t ≤ 2 ^ 31 - 1 then BitVec.ofInt 40 t else if 0 < t then 0x007FFFFFFF else 0xFF80000000
        overflow := false
        saturated := !decide (-(2 ^ 31) ≤ t ∧ t ≤ 2 ^ 31 - 1)
        catastrophic := false } := by
  simp only [accResult, fits_32, decide_eq_true_iff, Bool.not_false, Bool.and_self, if_true]

/-- 39-bit saturation (R333). -/
theorem accResult_sat39 :
    accResult true true t =
      { value :=
          if -(2 ^ 39) ≤ t ∧ t ≤ 2 ^ 39 - 1 then BitVec.ofInt 40 t else if 0 < t then 0x7FFFFFFFFF else 0x8000000000
        overflow := !decide (-(2 ^ 31) ≤ t ∧ t ≤ 2 ^ 31 - 1)
        saturated := !decide (-(2 ^ 39) ≤ t ∧ t ≤ 2 ^ 39 - 1)
        catastrophic := false } := by
  simp only [accResult, fits_32, fits_40, decide_eq_true_iff, Bool.not_true, Bool.and_false, Bool.false_eq_true,
    if_false, if_true]

/-- Without saturation the accumulator wraps, and a result outside 40 bits is a catastrophic overflow (R333). -/
theorem accResult_unsaturated (accsat : Bool) :
    accResult false accsat t =
      { value := BitVec.ofInt 40 t
        overflow := !decide (-(2 ^ 31) ≤ t ∧ t ≤ 2 ^ 31 - 1)
        saturated := !decide (-(2 ^ 39) ≤ t ∧ t ≤ 2 ^ 39 - 1)
        catastrophic := !decide (-(2 ^ 39) ≤ t ∧ t ≤ 2 ^ 39 - 1) } := by
  simp only [accResult, fits_32, fits_40, Bool.false_and, Bool.false_eq_true, if_false]

/-- An overflow is catastrophic only without saturation (R333). -/
theorem catastrophic_iff (sat accsat : Bool) :
    (accResult sat accsat t).catastrophic = true ↔ sat = false ∧ ¬ (-(2 ^ 39) ≤ t ∧ t ≤ 2 ^ 39 - 1) := by
  cases sat with
  | false => rw [accResult_unsaturated, Bool.not_eq_true', decide_eq_false_iff_not, eq_self, true_and]
  | true => cases accsat <;> simp [accResult_sat31, accResult_sat39]

end

/-- What `AccWrite` of `t` to this accumulator decides in this state (R333). -/
def State.accResultOf (s : State) (a : Acc) (t : Int) : AccResult := accResult (s.corcon.satOf a) s.corcon.accsat t

/-! ### The status bits and the status of traps of one accumulator -/

section
variable (r : StatusReg) (a : Acc) (x : AccResult)

theorem withAcc_overflowOf : (r.withAcc a x).overflowOf a = x.overflow := by cases a <;> rfl

theorem withAcc_saturatedOf : (r.withAcc a x).saturatedOf a = (r.saturatedOf a || x.saturated) := by cases a <;> rfl

theorem withAcc_overflowOf_other : (r.withAcc a x).overflowOf (otherAcc a) = r.overflowOf (otherAcc a) := by
  cases a <;> rfl

theorem withAcc_saturatedOf_other : (r.withAcc a x).saturatedOf (otherAcc a) = r.saturatedOf (otherAcc a) := by
  cases a <;> rfl

/-- The bits of SR that no accumulator write touches (R331, R332). -/
theorem withAcc_rest :
    (r.withAcc a x).dc = r.dc ∧ (r.withAcc a x).n = r.n ∧ (r.withAcc a x).ov = r.ov ∧ (r.withAcc a x).z = r.z ∧
      (r.withAcc a x).c = r.c ∧ (r.withAcc a x).ipl = r.ipl ∧ (r.withAcc a x).ra = r.ra := by
  cases a <;> exact ⟨rfl, rfl, rfl, rfl, rfl, rfl, rfl⟩

/-- The bits of INTCON1 that no accumulator write touches (R334). -/
theorem intcon1_withAcc_rest (i : IntControl) :
    (i.withAcc a x).nstdis = i.nstdis ∧ (i.withAcc a x).ovate = i.ovate ∧ (i.withAcc a x).ovbte = i.ovbte ∧
      (i.withAcc a x).covte = i.covte ∧ (i.withAcc a x).sftacerr = i.sftacerr ∧
      (i.withAcc a x).div0err = i.div0err := by
  cases a <;> exact ⟨rfl, rfl, rfl, rfl, rfl, rfl⟩

end

/-! ### The state after an accumulator write -/

section
variable (s : State) (a : Acc) (t : Int)

/-- `AccWrite` as one record of the state: the arithmetic trap is the only one that it can make pending (R333, R334). -/
theorem accWrite_eq :
    s.accWrite a t =
      { s.setAcc a (s.accResultOf a t).value with
        sr := s.sr.withAcc a (s.accResultOf a t)
        intcon1 := s.intcon1.withAcc a (s.accResultOf a t)
        pendingTraps := { s.pendingTraps with
          arithmetic := s.pendingTraps.arithmetic || accTraps s.intcon1 a (s.accResultOf a t) } } := by
  unfold State.accWrite
  change (if accTraps s.intcon1 a (s.accResultOf a t) = true then _ else _) = _
  split
  case isTrue h => rw [h, Bool.or_true]; rfl
  case isFalse h => rw [Bool.eq_false_iff.2 h, Bool.or_false]; rfl

theorem accWrite_acc : (s.accWrite a t).acc a = (s.accResultOf a t).value := by
  rw [accWrite_eq]
  cases a <;> rfl

theorem accWrite_acc_other : (s.accWrite a t).acc (otherAcc a) = s.acc (otherAcc a) := by
  rw [accWrite_eq]
  cases a <;> rfl

theorem accWrite_sr : (s.accWrite a t).sr = s.sr.withAcc a (s.accResultOf a t) := by rw [accWrite_eq]

theorem accWrite_intcon1 : (s.accWrite a t).intcon1 = s.intcon1.withAcc a (s.accResultOf a t) := by rw [accWrite_eq]

theorem accWrite_pendingTraps :
    (s.accWrite a t).pendingTraps =
      { s.pendingTraps with
        arithmetic := s.pendingTraps.arithmetic || accTraps s.intcon1 a (s.accResultOf a t) } := by rw [accWrite_eq]

@[simp] theorem accWrite_corcon : (s.accWrite a t).corcon = s.corcon := by rw [accWrite_eq]; rfl
@[simp] theorem accWrite_dev : (s.accWrite a t).dev = s.dev := by rw [accWrite_eq]; rfl
@[simp] theorem accWrite_data : (s.accWrite a t).data = s.data := by rw [accWrite_eq]; rfl
@[simp] theorem readW_accWrite (r : RegNum) : (s.accWrite a t).readW r = s.readW r := by rw [accWrite_eq]; rfl
@[simp] theorem initialised_accWrite (r : RegNum) : (s.accWrite a t).initialised r = s.initialised r := by
  rw [accWrite_eq]; rfl

theorem accWrite_sameRest :
    SameRest s { s.accWrite a t with
      acca := s.acca, accb := s.accb, pendingTraps := s.pendingTraps, intcon1 := s.intcon1 } := by
  rw [accWrite_eq]
  constructor <;> simp

end

/-! ### Accumulators as numbers -/

section
variable (y : AccWord)

/-- Bits 39:16 are the accumulator divided by 2^16 and rounded down (R335). -/
theorem toInt_accHigh : (y.extractLsb' 16 24).toInt = y.toInt / 2 ^ 16 := by
  have hlt := y.isLt
  rw [BitVec.toInt_eq_toNat_cond, BitVec.toInt_eq_toNat_cond, BitVec.extractLsb'_toNat, Nat.shiftRight_eq_div_pow]
  split <;> split <;> omega

/-- Bits 15:0 are the remainder (R335). -/
theorem toNat_accLow : ((y.extractLsb' 0 16).toNat : Int) = y.toInt % 2 ^ 16 := by
  have hlt := y.isLt
  rw [BitVec.toInt_eq_toNat_cond, BitVec.extractLsb'_toNat, Nat.shiftRight_zero]
  split <;> omega

/-- Bit 16 says whether the quotient is odd (R335). -/
theorem accBit16_iff : y.getLsbD 16 = true ↔ y.toInt / 2 ^ 16 % 2 = 1 := by
  have hbit : y.getLsbD 16 = (y.extractLsb' 16 24).getLsbD 0 := by simp
  have hlt := (y.extractLsb' 16 24).isLt
  rw [hbit, bottomBit_iff, ← toInt_accHigh, BitVec.toInt_eq_toNat_cond]
  split <;> omega

/-- Rounding goes up past the middle, and at the middle with RND set or to the even neighbour (R335). -/
theorem roundUp_iff (rnd : Bool) :
    roundUp rnd y = true ↔
      2 ^ 15 < y.toInt % 2 ^ 16 ∨ y.toInt % 2 ^ 16 = 2 ^ 15 ∧ (rnd = true ∨ y.toInt / 2 ^ 16 % 2 = 1) := by
  rw [← toNat_accLow]
  cases rnd with
  | true => simp only [roundUp, if_true, decide_eq_true_iff, true_or, and_true]; omega
  | false =>
    simp only [roundUp, Bool.false_eq_true, if_false, Bool.or_eq_true, Bool.and_eq_true, decide_eq_true_iff,
      beq_iff_eq, accBit16_iff, false_or]
    omega

theorem upper_truncated (rnd : Bool) : upper rnd false y = y.toInt / 2 ^ 16 := by
  rw [upper, toInt_accHigh, Bool.false_and, if_neg Bool.false_ne_true, add_zero]

theorem upper_rounded (rnd : Bool) :
    upper rnd true y =
      y.toInt / 2 ^ 16 +
        if 2 ^ 15 < y.toInt % 2 ^ 16 ∨ y.toInt % 2 ^ 16 = 2 ^ 15 ∧ (rnd = true ∨ y.toInt / 2 ^ 16 % 2 = 1) then 1
        else 0 := by
  rw [upper, toInt_accHigh, Bool.true_and, if_congr (roundUp_iff y rnd) rfl rfl]

/-- The rounded quotient is a nearest one, and a tie goes up with RND set and to the even neighbour without (R335). -/
theorem upper_rounded_nearest (rnd : Bool) :
    upper rnd true y * 2 ^ 16 - 2 ^ 15 ≤ y.toInt ∧ y.toInt ≤ upper rnd true y * 2 ^ 16 + 2 ^ 15 ∧
      (y.toInt % 2 ^ 16 = 2 ^ 15 →
        (rnd = true → y.toInt < upper rnd true y * 2 ^ 16) ∧ (rnd = false → upper rnd true y % 2 = 0)) := by
  rw [upper_rounded]
  cases rnd with
  | true => simp only [true_or, and_true, forall_const, reduceCtorEq, false_imp_iff]; split <;> omega
  | false => simp only [Bool.false_eq_true, false_or, false_imp_iff, forall_const, true_and]; split <;> omega

/-- The 40-bit shift to the right (R337). -/
theorem toInt_shift40_right {k : Int} (hk : 0 ≤ k) : (shift40 y k).toInt = y.toInt / 2 ^ k.toNat := by
  rw [shift40, if_pos hk, toInt_sshiftRight_eq_div]

/-- The 40-bit shift to the left loses what leaves 40 bits (R337, D18). -/
theorem shift40_left {k : Int} (hk : k < 0) : shift40 y k = BitVec.ofInt 40 (y.toInt * 2 ^ (-k).toNat) := by
  rw [shift40, if_neg (Int.not_le.2 hk), BitVec.shiftLeft_eq_mul_twoPow, BitVec.ofInt_mul, BitVec.ofInt_toInt]
  congr 1
  apply BitVec.eq_of_toNat_eq
  simp only [BitVec.toNat_twoPow, BitVec.toNat_ofInt]
  norm_cast

end

/-- Data space write saturation holds the value within 16 bits (R336). -/
theorem storeValue_eq (c : CoreControl) (x : AccWord) (k : Int) (rounded : Bool) :
    storeValue c x k rounded =
      if c.satdw then BitVec.ofInt 16 (max (-0x8000) (min 0x7FFF (upper c.rnd rounded (shift40 x k))))
      else BitVec.ofInt 16 (upper c.rnd rounded (shift40 x k)) := by
  unfold storeValue
  generalize upper c.rnd rounded (shift40 x k) = h
  cases c.satdw with
  | false => rfl
  | true =>
    simp only [Bool.true_and, decide_eq_true_iff, if_true]
    by_cases hhigh : 0x7FFF < h
    · rw [if_pos hhigh, min_eq_left hhigh.le]
      rfl
    · rw [if_neg hhigh, min_eq_right (not_lt.1 hhigh)]
      by_cases hlow : h < -0x8000
      · rw [if_pos hlow, max_eq_left hlow.le]
        rfl
      · rw [if_neg hlow, max_eq_right (not_lt.1 hlow)]

/-! ### Loads, stores and the shift of an accumulator -/

theorem afterSource_acc (s : State) (b : RegNum) (byte : Bool) (o : Operand) (a : Acc) :
    (s.afterSource b byte o).acc a = s.acc a := by
  obtain ⟨ha, hb⟩ := (afterSource_sameRest s b byte o).accumulators
  cases a
  · exact ha
  · exact hb

section
variable {s : State} {a : Acc} {b : RegNum} {k : BitVec 4} {o : Operand}

/-- LAC loads the shifted datum (R352). -/
theorem exec_lac_ready (h : s.sourceReady b false o = true) :
    exec (.lac a b k o) s =
      .next ((s.afterSource b false o).accWrite a (shiftTrue (accDatum (s.sourceValue b false o)) k.toInt)) := by
  show execLac a b k o s = _
  unfold execLac
  exact outcome_ok (run_bind_ok (readOperand_ready h))

/-- ADD adds the shifted datum (R351). -/
theorem exec_addAccSrc_ready (h : s.sourceReady b false o = true) :
    exec (.addAccSrc a b k o) s =
      .next ((s.afterSource b false o).accWrite a
        ((s.acc a).toInt + shiftTrue (accDatum (s.sourceValue b false o)) k.toInt)) := by
  show execAddAccSrc a b k o s = _
  unfold execAddAccSrc
  refine outcome_ok ?_
  rw [run_bind_ok (readOperand_ready h), run_bind_ok (run_getS _), run_accWrite, afterSource_acc]

/-- SAC and SAC.R write the store value to their destination (R353, R354). -/
theorem exec_sac_ready (h : s.destReady b false o = true) :
    exec (.sac a b k o) s = .next (s.afterDest b false o (storeValue s.corcon (s.acc a) k.toInt false)) ∧
      exec (.sacR a b k o) s = .next (s.afterDest b false o (storeValue s.corcon (s.acc a) k.toInt true)) :=
  ⟨outcome_ok (writeOperand_ready h _), outcome_ok (writeOperand_ready h _)⟩

/-- SFTAC writes the shifted accumulator, or raises the trap of a count out of range (R355). -/
theorem shiftAcc_outcome (s : State) (a : Acc) (n : Int) :
    outcome (shiftAcc a n) s =
      if n < -16 ∨ 16 < n then .next ({ s with intcon1 := { s.intcon1 with sftacerr := true } }.pend .arithmetic)
      else .next (s.accWrite a (shiftTrue (s.acc a).toInt n)) := by
  unfold shiftAcc
  by_cases h : n < -16 ∨ 16 < n
  case pos =>
    rw [if_pos h]
    refine outcome_ended ?_
    rw [run_bind_ok (run_getS s), if_pos (by simpa using h)]
    rfl
  case neg =>
    rw [if_neg h]
    refine outcome_ok ?_
    rw [run_bind_ok (run_getS s), if_neg (by simpa using h), run_accWrite]

end

/-! ### The record of the instruction under way -/

/-- The state with another record of the instruction under way, which is all that a prefetch's read changes. -/
def State.withCur (s : State) (c : Scratch) : State := { s with cur := c }

theorem withCur_sameRest (s : State) (c : Scratch) : SameRest s (s.withCur c) := { SameRest.refl s with }

theorem afterRead_withCur (s : State) (a : Word) : ∃ c, s.afterRead a = s.withCur c := by
  unfold State.afterRead
  split
  · exact ⟨_, rfl⟩
  · exact ⟨s.cur, rfl⟩

theorem accWrite_withCur (s : State) (c : Scratch) (a : Acc) (t : Int) :
    (s.withCur c).accWrite a t = (s.accWrite a t).withCur c := by
  rw [accWrite_eq, accWrite_eq]
  rfl

/-! ### Prefetches: the reads -/

theorem prefetchPointer_ne_15 : ∀ y second, prefetchPointer y second ≠ 15 := by decide

theorem prefetchPointer_ne_13 : ∀ y second, prefetchPointer y second ≠ 13 := by decide

theorem operandReg_ne_15 : ∀ m, operandReg m ≠ 15 := by decide

theorem operandReg_ne_13 : ∀ m, operandReg m ≠ 13 := by decide

theorem prefetchPointer_ne_operandReg : ∀ y second m, prefetchPointer y second ≠ operandReg m := by decide

theorem operandReg_inj : ∀ m n, operandReg m = operandReg n → m = n := by decide

section
variable {s : State} {ySpace : Bool} {ea : Word} {p x y : Prefetch}

/-- A word that can be read has an even address (R109). -/
theorem even_of_readable (h : s.readable false ea = true) : ea.getLsbD 0 = false := by
  obtain ⟨heven, -⟩ := Bool.and_eq_true_iff.1 h
  simpa using heven

theorem spaceRead_misaligned {t : State} {e : Stop} (ha : ea.getLsbD 0 = true)
    (h : (addressErrorIf true).run s = .error e t) : (spaceRead ySpace ea).run s = .error e t := by
  unfold spaceRead
  rw [ha]
  exact run_bind_error h

/-- A prefetch from the other data space faults (R339, U7). -/
theorem spaceRead_otherSpace (ha : ea.getLsbD 0 = false) (h : s.inY ea ≠ ySpace) :
    (spaceRead ySpace ea).run s = .error (.fault (if ySpace then .yPrefetchOutsideY else .xPrefetchInY)) s := by
  unfold spaceRead
  rw [ha, run_bind_ok (run_addressErrorIf_false s), run_bind_ok (run_getS s), Bool.eq_not.2 h]
  cases ySpace <;> rfl

theorem spaceRead_ready (hy : s.inY ea = ySpace) (h : s.readable false ea = true) :
    (spaceRead ySpace ea).run s = .ok (s.readValue false ea) (s.afterRead ea) := by
  unfold spaceRead
  rw [even_of_readable h, run_bind_ok (run_addressErrorIf_false s), run_bind_ok (run_getS s), hy, Bool.and_not_self,
    Bool.not_and_self, run_bind_ok (run_stopIf_false _ s), run_bind_ok (run_stopIf_false _ s), memRead_ready h]

/-- A register other than W15 may be read through right after a write of SPLIM (R570). -/
theorem sourceThrough_ne_15 {r : RegNum} (hr : r ≠ 15) (s : State) :
    (sourceThrough r).run s = .ok () (s.markSrcEa r) :=
  sourceThrough_ok (by rw [beq_false_of_ne hr, Bool.false_and])

theorem ptr_initialised {r : RegNum} (h : s.initialised r = true) : (ptr r).run s = .ok (s.readW r) s := by
  show (if s.initialised r then _ else _) = _
  rw [if_pos h]

/-- A prefetch marks the registers of its address and reads in its own space (R339). -/
theorem prefetchRead_run (hp : hasPrefetch p = true) (hptr : s.prefetchPointerReady ySpace p = true) :
    ∃ c, (prefetchRead ySpace p).run s =
      (spaceRead ySpace (s.prefetchEa ySpace p) >>= fun v => pure (some v)).run (s.withCur c) := by
  cases p with
  | none => cases hp
  | pointer second step =>
    refine ⟨(s.markSrcEa (prefetchPointer ySpace second)).cur, ?_⟩
    unfold prefetchRead
    rw [run_bind_ok (sourceThrough_ne_15 (prefetchPointer_ne_15 _ _) s),
      run_bind_ok (ptr_initialised (s := s.markSrcEa _) hptr)]
    rfl
  | indexed =>
    refine ⟨((s.markSrcEa (prefetchPointer ySpace true)).markSrcEa 12).cur, ?_⟩
    unfold prefetchRead
    rw [run_bind_ok (sourceThrough_ne_15 (prefetchPointer_ne_15 _ _) s),
      run_bind_ok (sourceThrough_ne_15 (by decide) _),
      run_bind_ok (ptr_initialised (s := (s.markSrcEa _).markSrcEa 12) hptr), run_bind_ok (run_readW 12 _)]
    rfl

/-- A prefetch through an uninitialised pointer resets the device (R27). -/
theorem prefetchRead_uninitialised (hp : hasPrefetch p = true) (hptr : s.prefetchPointerReady ySpace p = false) :
    (prefetchRead ySpace p).run s = .error .ended (deviceReset s) := by
  cases p with
  | none => cases hp
  | pointer second step =>
    unfold prefetchRead
    rw [run_bind_ok (sourceThrough_ne_15 (prefetchPointer_ne_15 _ _) s),
      run_bind_error (ptr_uninitialised (s := s.markSrcEa _) hptr)]
    rfl
  | indexed =>
    unfold prefetchRead
    rw [run_bind_ok (sourceThrough_ne_15 (prefetchPointer_ne_15 _ _) s),
      run_bind_ok (sourceThrough_ne_15 (by decide) _),
      run_bind_error (ptr_uninitialised (s := (s.markSrcEa _).markSrcEa 12) hptr)]
    rfl

/-- The word that a prefetch that can be made gives (R339). -/
def State.prefetched (s : State) (ySpace : Bool) (p : Prefetch) : Option Word :=
  if hasPrefetch p then some (s.readValue false (s.prefetchEa ySpace p)) else none

theorem prefetched_isSome (s : State) (ySpace : Bool) (p : Prefetch) :
    (s.prefetched ySpace p).isSome = hasPrefetch p := by
  unfold State.prefetched
  cases hasPrefetch p <;> rfl

theorem prefetched_getD (s : State) (ySpace : Bool) (hp : hasPrefetch p = true) :
    (s.prefetched ySpace p).getD 0 = s.readValue false (s.prefetchEa ySpace p) := by
  rw [State.prefetched, if_pos hp, Option.getD_some]

theorem prefetchRead_ready (h : s.prefetchReady ySpace p = true) :
    ∃ c, (prefetchRead ySpace p).run s = .ok (s.prefetched ySpace p) (s.withCur c) := by
  by_cases hp : hasPrefetch p = true
  case neg =>
    cases p with
    | none => exact ⟨s.cur, rfl⟩
    | pointer | indexed => exact absurd rfl hp
  case pos =>
    simp only [State.prefetchReady, hp, Bool.not_true, Bool.false_or, Bool.and_eq_true, beq_iff_eq] at h
    obtain ⟨⟨hptr, hspace⟩, hread⟩ := h
    obtain ⟨c, hrun⟩ := prefetchRead_run hp hptr
    obtain ⟨c', hafter⟩ := afterRead_withCur (s.withCur c) (s.prefetchEa ySpace p)
    refine ⟨c', ?_⟩
    rw [hrun, run_bind_ok (spaceRead_ready (s := s.withCur c) hspace hread), hafter, State.prefetched,
      if_pos hp]
    rfl

theorem prefetchReads_ready (hx : s.prefetchReady false x = true) (hy : s.prefetchReady true y = true) :
    ∃ c, (prefetchReads x y).run s = .ok (s.prefetched false x, s.prefetched true y) (s.withCur c) := by
  obtain ⟨c, hxrun⟩ := prefetchRead_ready hx
  obtain ⟨d, hyrun⟩ := prefetchRead_ready (s := s.withCur c) hy
  refine ⟨d, ?_⟩
  unfold prefetchReads
  rw [run_bind_ok hxrun, run_bind_ok hyrun]
  rfl

/-- A prefetch that cannot be made stops the instruction that answers what its read stops with (R27, R339, U7). -/
theorem prefetchStops_of_read {i : Instr} (c : Scratch)
    (h : ∀ e t, (prefetchRead ySpace p).run (s.withCur c) = .error e t → exec i s = outcome (stopWith e) t) :
    PrefetchStops i s ySpace p := by
  intro hp
  have hstop : s.prefetchPointerReady ySpace p = true →
      ∃ d, ∀ e t, (spaceRead ySpace (s.prefetchEa ySpace p)).run (s.withCur d) = .error e t →
        exec i s = outcome (stopWith e) t := fun hptr => by
    obtain ⟨d, hrun⟩ := prefetchRead_run (s := s.withCur c) hp hptr
    exact ⟨d, fun e t he => h e t (hrun.trans (run_bind_error he))⟩
  refine ⟨fun hptr => h _ _ (prefetchRead_uninitialised (s := s.withCur c) hp hptr), ?_⟩
  rintro ea hptr rfl
  obtain ⟨d, hread⟩ := hstop hptr
  refine ⟨fun hodd hdev => ?fault, fun hodd hdev => ?trap, fun heven hspace => ?space⟩
  case fault => exact hread _ _ (spaceRead_misaligned hodd (addressErrorIf_fault hdev))
  case trap =>
    exact ⟨_, hread _ _ (spaceRead_misaligned hodd (addressErrorIf_raise hdev)), rfl, { SameRest.refl s with }, rfl,
      fun _ _ => ⟨rfl, rfl⟩, rfl⟩
  case space => exact hread _ _ (spaceRead_otherSpace heven hspace)

/-- The prefetches are read first, X before Y, so one that cannot be made stops the instruction (R141, R339, D21). -/
theorem prefetchStops_of_reads {i : Instr}
    (h : ∀ e t, (prefetchReads x y).run s = .error e t → exec i s = outcome (stopWith e) t) :
    PrefetchStops i s false x ∧ (s.prefetchReady false x = true → PrefetchStops i s true y) := by
  refine ⟨prefetchStops_of_read s.cur fun e t he => h e t (run_bind_error he), fun hx => ?_⟩
  obtain ⟨c, hrun⟩ := prefetchRead_ready hx
  refine prefetchStops_of_read c fun e t he => h e t ?_
  unfold prefetchReads
  rw [run_bind_ok hrun, run_bind_error he]

end

/-! ### Prefetches: the registers -/

section
variable (s : State) {ySpace : Bool} {p : Prefetch}

/-- A register after a word is put in it, where there is one. -/
theorem readW_movePointer {r : RegNum} (hr : r ≠ 15) (v : Option Word) (q : RegNum) :
    (s.movePointer r v).readW q = if q = r then v.getD (s.readW q) else s.readW q := by
  cases v with
  | none => exact (ite_self _).symm
  | some x => exact (readW_putWord s r q x).trans (by rw [if_neg hr, if_congr eq_comm rfl rfl, Option.getD_some])

theorem initialised_movePointer (r : RegNum) (v : Option Word) (q : RegNum) :
    (s.movePointer r v).initialised q = (s.initialised q || (v.isSome && q == r)) := by
  cases v with
  | none => exact (Bool.or_false _).symm
  | some x => exact (initialised_putWord s r q x).trans (by rw [BEq.comm, Option.isSome_some, Bool.true_and])

theorem run_prefetchWrite (r : RegNum) (v : Option Word) :
    (prefetchWrite r v).run s = .ok () (s.movePointer r v) := by cases v <;> rfl

/-- The state after the pointer modification of a prefetch (R339). -/
def State.prefetchMoved (s : State) (ySpace : Bool) (p : Prefetch) : State :=
  match p with
  | .none | .indexed => s
  | .pointer second step =>
    s.movePointer (prefetchPointer ySpace second)
      (if step = .zero then none else some (s.readW (prefetchPointer ySpace second) + stepAmount step))

theorem run_prefetchModify (ySpace : Bool) (p : Prefetch) :
    (prefetchModify ySpace p).run s = .ok () (s.prefetchMoved ySpace p) := by
  cases p with
  | none | indexed => rfl
  | pointer second step => cases step <;> rfl

theorem run_prefetchMoveBoth (x y : Prefetch) :
    (prefetchMoveBoth x y).run s = .ok () ((s.prefetchMoved false x).prefetchMoved true y) := by
  unfold prefetchMoveBoth
  rw [run_bind_ok (run_prefetchModify s false x), run_prefetchModify]

theorem prefetchMoved_sameRest (ySpace : Bool) (p : Prefetch) : SameRest s (s.prefetchMoved ySpace p) := by
  cases p with
  | none | indexed => exact SameRest.refl s
  | pointer => exact movePointer_sameRest s _ _

@[simp] theorem prefetchMoved_sr (ySpace : Bool) (p : Prefetch) : (s.prefetchMoved ySpace p).sr = s.sr := by
  cases p with
  | none | indexed => rfl
  | pointer => exact movePointer_sr s _ _

@[simp] theorem prefetchMoved_data (ySpace : Bool) (p : Prefetch) : (s.prefetchMoved ySpace p).data = s.data := by
  cases p with
  | none | indexed => rfl
  | pointer => exact movePointer_data s _ _

/-- A prefetch adds its step to its pointer (R339). -/
theorem readW_prefetchMoved (ySpace : Bool) (p : Prefetch) (r : RegNum) :
    (s.prefetchMoved ySpace p).readW r = s.readW r + prefetchMoves ySpace p r := by
  cases p with
  | none | indexed => exact (BitVec.add_zero _).symm
  | pointer second step =>
    show (s.movePointer _ _).readW r = s.readW r + if r = prefetchPointer ySpace second then stepAmount step else 0
    rw [readW_movePointer s (prefetchPointer_ne_15 _ _)]
    by_cases hr : r = prefetchPointer ySpace second
    case neg =>
      rw [if_neg hr, if_neg hr]
      exact (BitVec.add_zero _).symm
    case pos =>
      subst hr
      rw [if_pos rfl, if_pos rfl]
      cases step with
      | zero => exact (BitVec.add_zero _).symm
      | plus2 | plus4 | plus6 | minus6 | minus4 | minus2 => rfl

/-- The pointer of a prefetch that is made is initialised already (R27). -/
theorem initialised_prefetchMoved (h : s.prefetchPointerReady ySpace p = true) (r : RegNum) :
    (s.prefetchMoved ySpace p).initialised r = s.initialised r := by
  cases p with
  | none | indexed => rfl
  | pointer second step =>
    have hptr : s.initialised (prefetchPointer ySpace second) = true := h
    show (s.movePointer _ _).initialised r = _
    rw [initialised_movePointer]
    by_cases hr : r = prefetchPointer ySpace second
    · rw [hr, hptr, Bool.true_or]
    · rw [beq_false_of_ne hr, Bool.and_false, Bool.or_false]

/-- No prefetch moves an operand register (R303). -/
theorem prefetchMoves_operandReg (ySpace : Bool) (p : Prefetch) (m : BitVec 2) :
    prefetchMoves ySpace p (operandReg m) = 0 := by
  cases p with
  | none | indexed => rfl
  | pointer => exact if_neg (prefetchPointer_ne_operandReg _ _ _).symm

/-- No prefetch moves W13 (R303). -/
theorem prefetchMoves_13 (ySpace : Bool) (p : Prefetch) : prefetchMoves ySpace p 13 = 0 := by
  cases p with
  | none | indexed => rfl
  | pointer => exact if_neg (prefetchPointer_ne_13 _ _).symm

end

/-! ### What the prefetches leave -/

/-- The state with words in the prefetched registers and both pointers moved (R339). -/
def State.dspStored (u : State) (xd yd : BitVec 2) (x y : Prefetch) (dx dy : Option Word) : State :=
  (((u.movePointer (operandReg xd) dx).movePointer (operandReg yd) dy).prefetchMoved false x).prefetchMoved true y

section
variable (u : State) {xd yd : BitVec 2} {x y : Prefetch} {dx dy : Option Word}

theorem dspStored_sameRest : SameRest u (u.dspStored xd yd x y dx dy) :=
  (movePointer_sameRest u _ _).trans <| (movePointer_sameRest _ _ _).trans <| (prefetchMoved_sameRest _ _ _).trans <|
    prefetchMoved_sameRest _ _ _

@[simp] theorem dspStored_sr : (u.dspStored xd yd x y dx dy).sr = u.sr := by simp [State.dspStored]

@[simp] theorem dspStored_data : (u.dspStored xd yd x y dx dy).data = u.data := by simp [State.dspStored]

/-- Two words put in operand registers do not meet, where at most one of them is a word or the registers differ. -/
theorem readW_movePointer_twice (hd : ¬ (dx.isSome = true ∧ dy.isSome = true ∧ xd = yd)) (r : RegNum) :
    ((u.movePointer (operandReg xd) dx).movePointer (operandReg yd) dy).readW r =
      if dx.isSome && r == operandReg xd then dx.getD 0
      else if dy.isSome && r == operandReg yd then dy.getD 0
      else u.readW r := by
  rw [readW_movePointer _ (operandReg_ne_15 _), readW_movePointer _ (operandReg_ne_15 _)]
  cases dx with
  | none => cases dy <;> simp
  | some a =>
    cases dy with
    | none => simp
    | some b =>
      have hne : operandReg xd ≠ operandReg yd := fun h => hd ⟨rfl, rfl, operandReg_inj _ _ h⟩
      by_cases hr : r = operandReg xd
      · simp [hr, hne]
      · simp [hr]

/-- A register takes its word, and any other one moves as the prefetches say (R339). -/
theorem readW_dspStored (hd : ¬ (dx.isSome = true ∧ dy.isSome = true ∧ xd = yd)) (r : RegNum) :
    (u.dspStored xd yd x y dx dy).readW r =
      if dx.isSome && r == operandReg xd then dx.getD 0
      else if dy.isSome && r == operandReg yd then dy.getD 0
      else u.readW r + prefetchMoves false x r + prefetchMoves true y r := by
  have hstay : ∀ (v : Word) (m : BitVec 2), r = operandReg m →
      v + prefetchMoves false x r + prefetchMoves true y r = v := by
    rintro v m rfl
    rw [prefetchMoves_operandReg, prefetchMoves_operandReg]
    exact (BitVec.add_zero _).trans (BitVec.add_zero _)
  unfold State.dspStored
  rw [readW_prefetchMoved, readW_prefetchMoved, readW_movePointer_twice u hd]
  split
  case isTrue h => exact hstay _ xd (beq_iff_eq.1 (Bool.and_eq_true_iff.1 h).2)
  case isFalse =>
    split
    case isTrue h => exact hstay _ yd (beq_iff_eq.1 (Bool.and_eq_true_iff.1 h).2)
    case isFalse => rfl

/-- A prefetch's pointer stays initialised. -/
theorem prefetchPointerReady_mono {s t : State} (h : ∀ r, s.initialised r = true → t.initialised r = true)
    {ySpace : Bool} {p : Prefetch} (hp : s.prefetchPointerReady ySpace p = true) :
    t.prefetchPointerReady ySpace p = true := by
  cases p with
  | none => rfl
  | pointer | indexed => exact h _ hp

/-- A register that takes a word is initialised (R26). -/
theorem initialised_dspStored (hx : u.prefetchPointerReady false x = true) (hy : u.prefetchPointerReady true y = true)
    (r : RegNum) :
    (u.dspStored xd yd x y dx dy).initialised r =
      (u.initialised r || (dx.isSome && r == operandReg xd) || (dy.isSome && r == operandReg yd)) := by
  have hgrows : ∀ q, u.initialised q = true →
      ((u.movePointer (operandReg xd) dx).movePointer (operandReg yd) dy).initialised q = true := fun q hq => by
    rw [initialised_movePointer, initialised_movePointer, hq, Bool.true_or, Bool.true_or]
  have hx' := prefetchPointerReady_mono hgrows hx
  unfold State.dspStored
  rw [initialised_prefetchMoved _ (prefetchPointerReady_mono
      (fun q hq => (initialised_prefetchMoved _ hx' q).trans (hgrows q hq)) hy),
    initialised_prefetchMoved _ hx', initialised_movePointer, initialised_movePointer]

end

/-! ### The write-back -/

/-- The state after the write-back of a value (R338). -/
def State.writtenBack (s : State) (wb : WriteBack) (v : Word) : State :=
  match wb with
  | .none => s
  | .w13 => s.putWord 13 v
  | .w13Inc => (s.putWord 13 (s.readW 13 + 2)).store false (s.readW 13) v

section
variable {s u : State} {wb : WriteBack} {v : Word}

theorem writeBack_ready (h : s.writeBackReady wb = true) : (writeBack wb v).run s = .ok () (s.writtenBack wb v) := by
  cases wb with
  | none | w13 => rfl
  | w13Inc =>
    obtain ⟨hinit, hw⟩ := Bool.and_eq_true_iff.1 h
    unfold writeBack
    rw [run_bind_ok (ptr_initialised hinit), even_of_readable (readable_of_writable hw).1, run_bind_ok (run_addressErrorIf_false s),
      run_bind_ok (run_writeWord _ _ s), memWrite_ready (((putWord_sameRest s _ _).writable _ _).trans hw)]
    rfl

/-- Where a write-back can be made depends on W13, the device and the PSV window alone (R338). -/
theorem writeBackReady_of_same (hr : u.readW 13 = s.readW 13) (hi : s.initialised 13 = true → u.initialised 13 = true)
    (hd : u.dev = s.dev) (hc : u.corcon = s.corcon) (h : s.writeBackReady wb = true) : u.writeBackReady wb = true := by
  cases wb with
  | none | w13 => rfl
  | w13Inc =>
    obtain ⟨hinit, hw⟩ := Bool.and_eq_true_iff.1 h
    refine Bool.and_eq_true_iff.2 ⟨hi hinit, ?_⟩
    unfold State.writable State.inRam at hw ⊢
    rw [hr, hd, hc]
    exact hw

theorem writtenBack_sameRest (s : State) (wb : WriteBack) (v : Word) : SameRest s (s.writtenBack wb v) := by
  cases wb with
  | none => exact SameRest.refl s
  | w13 => exact putWord_sameRest s 13 v
  | w13Inc => exact (putWord_sameRest s 13 _).trans (store_sameRest _ _ _ _)

theorem writtenBack_sr (s : State) (wb : WriteBack) (v : Word) : (s.writtenBack wb v).sr = s.sr := by cases wb <;> rfl

theorem writtenBack_data (wb : WriteBack) (hwb : wb ≠ .w13Inc) (s : State) (v : Word) :
    (s.writtenBack wb v).data = s.data := by
  cases wb with
  | none | w13 => rfl
  | w13Inc => exact absurd rfl hwb

/-- The rounded accumulator goes to W13, or the pointer in W13 moves (R338). -/
theorem readW_writtenBack (s : State) (wb : WriteBack) (v : Word) (r : RegNum) :
    (s.writtenBack wb v).readW r =
      if r = 13 then
        match wb with
        | .w13 => v
        | .w13Inc => s.readW 13 + 2
        | .none => s.readW 13
      else s.readW r := by
  by_cases h : r = 13
  case pos =>
    subst h
    cases wb with
    | none => rfl
    | w13 => exact readW_putWord s 13 13 v
    | w13Inc => exact readW_putWord s 13 13 _
  case neg =>
    rw [if_neg h]
    cases wb with
    | none => rfl
    | w13 => exact (readW_putWord s 13 r v).trans (if_neg (Ne.symm h))
    | w13Inc => exact (readW_putWord s 13 r _).trans (if_neg (Ne.symm h))

theorem initialised_writtenBack (h : s.writeBackReady wb = true) (v : Word) (r : RegNum) :
    (s.writtenBack wb v).initialised r = (s.initialised r || (wb == .w13 && r == 13)) := by
  cases wb with
  | none => exact (Bool.or_false _).symm
  | w13 => exact (initialised_putWord s 13 r v).trans (by rw [BEq.comm]; rfl)
  | w13Inc =>
    have hinit : s.initialised 13 = true := (Bool.and_eq_true_iff.1 h).1
    show (s.putWord 13 _).initialised r = _
    rw [initialised_putWord]
    by_cases hr : r = 13
    · rw [hr, hinit, Bool.true_or, Bool.true_or]
    · rw [beq_false_of_ne (Ne.symm hr)]
      rfl

end

/-! ### The MAC class, ED and EDAC -/

theorem dspProduct_eq_product (c : CoreControl) (x y : Word) : dspProduct c x y = c.product x y := by
  unfold dspProduct CoreControl.product mulInput
  cases c.us <;> rfl

section
variable {s : State} {m n : RegNum} {a : Acc} {xd yd : BitVec 2} {x y : Prefetch} {wb : WriteBack} {v : Int}
  {f : Int → Int → Int}

/-- The MAC class stops where its prefetches stop (R141, D21). -/
theorem macClass_stops {t : State} {e : Stop} (hc : prefetchConflict xd yd x y = false)
    (h : (prefetchReads x y).run s = .error e t) : (macClass m n a xd yd x y wb f).run s = .error e t := by
  unfold macClass
  rw [run_bind_ok (refuseConflict_ok hc s), run_bind_ok (run_getS s), run_bind_error h]

/-- ED and EDAC stop where their prefetches stop (R141, D21). -/
theorem distance_stops {k : BitVec 2} {t : State} {e : Stop} (hp : (hasPrefetch x && hasPrefetch y) = true)
    (h : (prefetchReads x y).run s = .error e t) : (distance k a xd x y f).run s = .error e t := by
  unfold distance
  rw [← Bool.not_and, hp, Bool.not_true, run_bind_ok (run_stopIf_false _ s), run_bind_ok (run_getS s),
    run_bind_error h]

theorem prefetchReady_pointer {ySpace : Bool} {p : Prefetch} (h : s.prefetchReady ySpace p = true) :
    s.prefetchPointerReady ySpace p = true := by
  cases p with
  | none => rfl
  | pointer | indexed =>
    obtain ⟨⟨hptr, -⟩, -⟩ : (_ ∧ _) ∧ _ := by
      simpa only [State.prefetchReady, hasPrefetch, Bool.not_true, Bool.false_or, Bool.and_eq_true] using h
    exact hptr

/-- After the accumulator write and two prefetches that can be made, only a register that takes a word is newly
initialised (R26). -/
theorem initialised_afterPrefetches {dx dy : Option Word} (hx : s.prefetchReady false x = true)
    (hy : s.prefetchReady true y = true) (c : Scratch) (r : RegNum) :
    (((s.accWrite a v).withCur c).dspStored xd yd x y dx dy).initialised r =
      (s.initialised r || (dx.isSome && r == operandReg xd) || (dy.isSome && r == operandReg yd)) := by
  have hinit : ∀ q, ((s.accWrite a v).withCur c).initialised q = s.initialised q := initialised_accWrite s a v
  have hmono : ∀ q, s.initialised q = true → ((s.accWrite a v).withCur c).initialised q = true := fun q hq =>
    (hinit q).trans hq
  rw [initialised_dspStored _ (prefetchPointerReady_mono hmono (prefetchReady_pointer hx))
    (prefetchPointerReady_mono hmono (prefetchReady_pointer hy)), hinit]

/-- The state after an instruction of the MAC class but for its write-back (R338, R339). -/
def State.macStored (s : State) (c : Scratch) (a : Acc) (v : Int) (xd yd : BitVec 2) (x y : Prefetch) : State :=
  ((s.accWrite a v).withCur c).dspStored xd yd x y (s.prefetched false x) (s.prefetched true y)

theorem macStored_sameRest (c : Scratch) : SameRest (s.accWrite a v) (s.macStored c a v xd yd x y) :=
  (withCur_sameRest _ c).trans (dspStored_sameRest _)

theorem macStored_sr (c : Scratch) : (s.macStored c a v xd yd x y).sr = (s.accWrite a v).sr := dspStored_sr _

theorem macStored_data (c : Scratch) : (s.macStored c a v xd yd x y).data = s.data :=
  (dspStored_data _).trans (accWrite_data s a v)

/-- The registers that the prefetches write and move (R339). -/
theorem readW_macStored (hc : prefetchConflict xd yd x y = false) (c : Scratch) (r : RegNum) :
    (s.macStored c a v xd yd x y).readW r =
      if hasPrefetch x && r == operandReg xd then s.readValue false (s.prefetchEa false x)
      else if hasPrefetch y && r == operandReg yd then s.readValue false (s.prefetchEa true y)
      else s.readW r + prefetchMoves false x r + prefetchMoves true y r := by
  have hd : ¬ ((s.prefetched false x).isSome = true ∧ (s.prefetched true y).isSome = true ∧ xd = yd) := by
    rw [prefetched_isSome, prefetched_isSome]
    rintro ⟨hx, hy, rfl⟩
    simp [prefetchConflict, hx, hy] at hc
  have hreg : ((s.accWrite a v).withCur c).readW r = s.readW r := readW_accWrite s a v r
  rw [State.macStored, readW_dspStored _ hd, prefetched_isSome, prefetched_isSome, hreg]
  split
  case isTrue h => exact prefetched_getD s false (Bool.and_eq_true_iff.1 h).1
  case isFalse =>
    split
    case isTrue h => exact prefetched_getD s true (Bool.and_eq_true_iff.1 h).1
    case isFalse => rfl

theorem readW_macStored_13 (hc : prefetchConflict xd yd x y = false) (c : Scratch) :
    (s.macStored c a v xd yd x y).readW 13 = s.readW 13 := by
  rw [readW_macStored hc, beq_false_of_ne (operandReg_ne_13 _).symm, beq_false_of_ne (operandReg_ne_13 _).symm,
    Bool.and_false, Bool.and_false, if_neg Bool.false_ne_true, if_neg Bool.false_ne_true, prefetchMoves_13,
    prefetchMoves_13]
  exact (BitVec.add_zero _).trans (BitVec.add_zero _)

theorem initialised_macStored (hx : s.prefetchReady false x = true) (hy : s.prefetchReady true y = true) (c : Scratch)
    (r : RegNum) :
    (s.macStored c a v xd yd x y).initialised r =
      (s.initialised r || (hasPrefetch x && r == operandReg xd) || (hasPrefetch y && r == operandReg yd)) := by
  rw [State.macStored, initialised_afterPrefetches hx hy, prefetched_isSome, prefetched_isSome]

theorem macStored_writeBackReady (hc : prefetchConflict xd yd x y = false) (hx : s.prefetchReady false x = true)
    (hy : s.prefetchReady true y = true) (hw : s.writeBackReady wb = true) (c : Scratch) :
    (s.macStored c a v xd yd x y).writeBackReady wb = true := by
  have hrest : SameRest (s.accWrite a v) (s.macStored c a v xd yd x y) := macStored_sameRest c
  refine writeBackReady_of_same (readW_macStored_13 hc c) (fun hi => ?_) (hrest.dev.trans (accWrite_dev s a v))
    (hrest.corcon.trans (accWrite_corcon s a v)) hw
  rw [initialised_macStored hx hy, hi, Bool.true_or, Bool.true_or]

/-- The MAC class where its prefetches and its write-back can be made (R338 to R345). -/
theorem macClass_ready (hc : prefetchConflict xd yd x y = false) (hx : s.prefetchReady false x = true)
    (hy : s.prefetchReady true y = true) (hw : s.writeBackReady wb = true)
    (hv : f (s.acc a).toInt (dspProduct s.corcon (s.readW m) (s.readW n)) = v) :
    ∃ c, outcome (macClass m n a xd yd x y wb f) s =
      .next ((s.macStored c a v xd yd x y).writtenBack wb (storeValue s.corcon (s.acc (otherAcc a)) 0 true)) := by
  obtain ⟨c, hreads⟩ := prefetchReads_ready hx hy
  refine ⟨c, outcome_ok ?_⟩
  unfold macClass
  rw [run_bind_ok (refuseConflict_ok hc s), run_bind_ok (run_getS s), run_bind_ok hreads, hv,
    run_bind_ok (run_accWrite a v _), accWrite_withCur, run_bind_ok (run_prefetchWrite _ _ _),
    run_bind_ok (run_prefetchWrite _ _ _), run_bind_ok (run_prefetchMoveBoth _ x y)]
  exact writeBack_ready (macStored_writeBackReady hc hx hy hw c)

/-- The registers after an instruction of the MAC class (R338, R339). -/
theorem readW_macClass (hc : prefetchConflict xd yd x y = false) (c : Scratch) (b : Word) (r : RegNum) :
    ((s.macStored c a v xd yd x y).writtenBack wb b).readW r =
      s.dspReg xd yd x y wb (s.readValue false (s.prefetchEa false x)) (s.readValue false (s.prefetchEa true y)) b
        r := by
  rw [readW_writtenBack, readW_macStored_13 hc, readW_macStored hc]
  unfold State.dspReg
  by_cases h : r = 13
  case neg => rw [if_neg h, if_neg h]
  case pos =>
    rw [h, beq_false_of_ne (operandReg_ne_13 _).symm, beq_false_of_ne (operandReg_ne_13 _).symm, Bool.and_false,
      Bool.and_false, if_neg Bool.false_ne_true, if_neg Bool.false_ne_true]
    rfl

/-- ED and EDAC where both prefetches can be made (R346, R347). -/
theorem distance_ready {k : BitVec 2} (hpx : hasPrefetch x = true) (hpy : hasPrefetch y = true)
    (hx : s.prefetchReady false x = true) (hy : s.prefetchReady true y = true)
    (hv : f (s.acc a).toInt (dspProduct s.corcon (s.readW (operandReg k)) (s.readW (operandReg k))) = v) :
    ∃ c, outcome (distance k a xd x y f) s =
      .next (((s.accWrite a v).withCur c).dspStored xd xd x y
        (some (s.readValue false (s.prefetchEa false x) - s.readValue false (s.prefetchEa true y))) none) := by
  obtain ⟨c, hreads⟩ := prefetchReads_ready hx hy
  refine ⟨c, outcome_ok ?_⟩
  unfold distance
  rw [hpx, hpy, Bool.not_true, Bool.or_self, run_bind_ok (run_stopIf_false _ s), run_bind_ok (run_getS s),
    run_bind_ok hreads, hv, run_bind_ok (run_accWrite a v _), accWrite_withCur, run_bind_ok (run_writeWord _ _ _),
    run_prefetchMoveBoth, prefetched_getD s false hpx, prefetched_getD s true hpy]
  rfl

/-- The registers after ED and EDAC (R339, R346). -/
theorem readW_distance (hpx : hasPrefetch x = true) (c : Scratch) (d : Word) (r : RegNum) :
    (((s.accWrite a v).withCur c).dspStored xd xd x y (some d) none).readW r =
      s.dspReg xd xd x .none .none d 0 0 r + prefetchMoves true y r := by
  have hreg : ((s.accWrite a v).withCur c).readW r = s.readW r := readW_accWrite s a v r
  have hd : ¬ ((some d).isSome = true ∧ (none : Option Word).isSome = true ∧ xd = xd) := by
    rintro ⟨-, h, -⟩
    cases h
  rw [readW_dspStored _ hd, hreg]
  unfold State.dspReg
  rw [hpx, Option.isSome_some, Option.isSome_none, Option.getD_some, Bool.true_and]
  by_cases hxd : r = operandReg xd
  case pos =>
    subst hxd
    rw [if_pos (beq_self_eq_true _), if_pos (beq_self_eq_true _), prefetchMoves_operandReg]
    exact (BitVec.add_zero d).symm
  case neg =>
    have hnone : ∀ b : Bool, (hasPrefetch .none && b) = false := fun _ => rfl
    rw [beq_false_of_ne hxd, if_neg Bool.false_ne_true, if_neg Bool.false_ne_true, Bool.false_and, hnone,
      if_neg Bool.false_ne_true, if_neg Bool.false_ne_true]
    congr 1
    by_cases h13 : r = 13
    · rw [if_pos h13, h13, prefetchMoves_13]
      exact BitVec.add_zero _
    · rw [if_neg h13]
      exact (BitVec.add_zero _).symm

end

end Sys2Proof.Machine

namespace Sys2Proof.Proofs

open Sys2Proof.Machine

/-- Settles O36: the three modes are the three results of `accResult`, and `accWrite_eq` shows what else there is. -/
theorem accumulatorModes : Obligations.AccumulatorModes := by
  intro s a t
  have hsr := accWrite_sr s a t
  have hint := accWrite_intcon1 s a t
  obtain ⟨hdc, hn, hov, hz, hc, hipl, hra⟩ := withAcc_rest s.sr a (s.accResultOf a t)
  obtain ⟨hnst, hovate, hovbte, hcovte, hsft, hdiv⟩ := intcon1_withAcc_rest a (s.accResultOf a t) s.intcon1
  obtain ⟨-, -, -, -, hoab, hsab, -⟩ := srWord_bits (s.accWrite a t)
  have hmode : ∀ x, s.accResultOf a t = x →
      (s.accWrite a t).acc a = x.value ∧ (s.accWrite a t).sr.overflowOf a = x.overflow ∧
        (s.accWrite a t).sr.saturatedOf a = (s.sr.saturatedOf a || x.saturated) := by
    rintro x rfl
    rw [hsr]
    exact ⟨accWrite_acc s a t, withAcc_overflowOf _ _ _, withAcc_saturatedOf _ _ _⟩
  refine ⟨fun hsat haccsat => ?sat31, fun hsat haccsat => ?sat39, fun hsat => ?unsaturated, hoab, hsab,
    accWrite_acc_other s a t, ?_⟩
  case sat31 => exact hmode _ (by rw [State.accResultOf, hsat, haccsat, accResult_sat31])
  case sat39 => exact hmode _ (by rw [State.accResultOf, hsat, haccsat, accResult_sat39])
  case unsaturated => exact hmode _ (by rw [State.accResultOf, hsat, accResult_unsaturated])
  rw [hsr, hint]
  refine ⟨withAcc_overflowOf_other _ _ _, withAcc_saturatedOf_other _ _ _, hdc, hn, hov, hz, hc, hipl, hra,
    fun x hx => ?otherTraps, hnst, hovate, hovbte, hcovte, hsft, hdiv, ?ofA, ?ofB, accWrite_sameRest s a t,
    fun r _ => ⟨readW_accWrite s a t r, initialised_accWrite s a t r⟩, accWrite_data s a t⟩
  case otherTraps =>
    rw [accWrite_pendingTraps]
    cases x with
    | arithmetic => exact absurd rfl hx
    | stack | address | illegal | other => rfl
  case ofA => rintro rfl; exact ⟨rfl, rfl⟩
  case ofB => rintro rfl; exact ⟨rfl, rfl⟩

/-- Settles O37: a trap or a status bit is set that was set before or that `accTraps` raises, and `catastrophic_iff`
says when an overflow is catastrophic. -/
theorem accumulatorTraps : Obligations.AccumulatorTraps := by
  intro s t
  have hcat : ∀ a, (s.accResultOf a t).catastrophic = true ↔
      s.corcon.satOf a = false ∧ ¬ (-(2 ^ 39) ≤ t ∧ t ≤ 2 ^ 39 - 1) := fun a => catastrophic_iff t _ _
  have hoa : (s.accWrite .accA t).sr.oa = (s.accResultOf .accA t).overflow := by rw [accWrite_sr]; rfl
  have hob : (s.accWrite .accB t).sr.ob = (s.accResultOf .accB t).overflow := by rw [accWrite_sr]; rfl
  refine ⟨?pendingA, ?ovaerr, ?covaerr, ?pendingB, ?ovberr, ?covberr⟩
  case pendingA | pendingB =>
    simp only [accWrite_pendingTraps, accTraps, Bool.or_eq_true, Bool.and_eq_true, hcat, hoa, hob, and_assoc,
      CoreControl.satOf]
  case ovaerr | ovberr =>
    simp only [accWrite_intcon1, IntControl.withAcc, Bool.or_eq_true, Bool.and_eq_true, hoa, hob]
  case covaerr | covberr =>
    simp only [accWrite_intcon1, IntControl.withAcc, Bool.or_eq_true, Bool.and_eq_true, hcat, and_assoc,
      CoreControl.satOf]

/-- Settles O42: the bound is the value of `upper`, which truncates or rounds to nearest. -/
theorem storeValueExact : Obligations.StoreValueExact := by
  refine ⟨fun x k => ⟨fun hk _ => toInt_shift40_right x hk, fun _ hk => shift40_left x hk⟩, fun c x k rounded => ?_⟩
  refine ⟨upper c.rnd rounded (shift40 x k), ?truncated, ?rounded, storeValue_eq c x k rounded⟩
  case truncated =>
    rintro rfl
    rw [upper_truncated]
    omega
  case rounded =>
    rintro rfl
    exact upper_rounded_nearest _ _

/-- Settles O40: the datum at bits 31:16 is `accDatum`, the shift is `shiftTrue`. -/
theorem accumulatorLoads : Obligations.AccumulatorLoads := by
  rintro s a b k src d
  refine ⟨rfl, fun h hd => ?_⟩
  obtain rfl : d = shiftTrue (accDatum (s.sourceValue b false src)) k.toInt := hd
  exact ⟨exec_lac_ready h, exec_addAccSrc_ready h⟩

/-- Settles O41 by `exec_sac_ready`: a destination write leaves the accumulators and SR. -/
theorem accumulatorStores : Obligations.AccumulatorStores := by
  intro s a b k dst h
  have kept : ∀ v, (s.afterDest b false dst v).acca = s.acca ∧ (s.afterDest b false dst v).accb = s.accb ∧
      (s.afterDest b false dst v).sr = s.sr := fun v =>
    ⟨(afterDest_sameRest s b false dst v).accumulators.1, (afterDest_sameRest s b false dst v).accumulators.2,
      afterDest_sr s b false dst v⟩
  obtain ⟨hsac, hsacR⟩ := exec_sac_ready (a := a) (k := k) h
  exact ⟨⟨_, hsac, rfl, kept _⟩, ⟨_, hsacR, rfl, kept _⟩⟩

/-- Settles O43: both forms are `shiftAcc` with their count. -/
theorem accumulatorShift : Obligations.AccumulatorShift := by
  intro s a k r n i hi
  have hexec : exec i s = outcome (shiftAcc a n) s := by
    rcases hi with ⟨rfl, rfl⟩ | ⟨rfl, rfl⟩ <;> rfl
  rw [hexec, shiftAcc_outcome]
  exact ⟨fun h => if_neg (by omega), fun h => if_pos h⟩

/-- Settles O38: all six forms are `macClass`, which stops where a prefetch stops and otherwise is `macClass_ready`. -/
theorem dspMultiplies : Obligations.DspMultiplies := by
  intro s i p m a xd yd x y wb v hi
  obtain ⟨m', n', f, hexec, hv⟩ : ∃ m' n' f, exec i s = outcome (macClass m' n' a xd yd x y wb f) s ∧
      f (s.acc a).toInt (dspProduct s.corcon (s.readW m') (s.readW n')) = v := by
    simp only [← dspProduct_eq_product] at hi
    rcases hi with ⟨rfl, rfl⟩ | ⟨rfl, rfl⟩ | ⟨rfl, ⟨rfl, rfl⟩ | ⟨rfl, rfl⟩ | ⟨rfl, rfl⟩ | ⟨rfl, rfl⟩⟩ <;>
      exact ⟨_, _, _, rfl, rfl⟩
  rw [hexec]
  refine ⟨fun hc => outcome_refused (run_bind_error (refuseConflict_stops hc s)), fun hc => ?stops,
    fun hc hx hy hw => ?ready⟩
  case stops =>
    exact prefetchStops_of_reads fun e t h => hexec.trans (outcome_eq_of_run (macClass_stops hc h))
  case ready =>
    obtain ⟨c, hnext⟩ := macClass_ready hc hx hy hw hv
    refine ⟨_, hnext, (macStored_sameRest c).trans (writtenBack_sameRest _ wb _),
      (writtenBack_sr _ wb _).trans (macStored_sr c), readW_macClass hc c _, fun r => ?_, fun hwb => ?_, ?_⟩
    · rw [initialised_writtenBack (macStored_writeBackReady hc hx hy hw c), initialised_macStored hx hy]
    · rw [writtenBack_data wb hwb, macStored_data]
    · rintro rfl
      unfold State.writtenBack State.store
      simp only [putWord_data, macStored_data, readW_macStored_13 hc]

/-- Settles O39: both forms are `distance`, which stops where a prefetch stops and otherwise is `distance_ready`. -/
theorem euclideanDistance : Obligations.EuclideanDistance := by
  intro s i m a xd x y v hi
  obtain ⟨f, hexec, hv⟩ : ∃ f, exec i s = outcome (distance m a xd x y f) s ∧
      f (s.acc a).toInt (dspProduct s.corcon (s.readW (operandReg m)) (s.readW (operandReg m))) = v := by
    simp only [← dspProduct_eq_product] at hi
    rcases hi with ⟨rfl, rfl⟩ | ⟨rfl, rfl⟩ <;> exact ⟨_, rfl, rfl⟩
  rw [hexec]
  refine ⟨fun hp => ?refused, fun hpx hpy => ?stops, fun hpx hpy hx hy => ?ready⟩
  case refused =>
    refine outcome_refused (t := s) (run_bind_error ?_)
    rw [← Bool.not_and, hp]
    rfl
  case stops =>
    exact prefetchStops_of_reads fun e t h =>
      hexec.trans (outcome_eq_of_run (distance_stops (Bool.and_eq_true_iff.2 ⟨hpx, hpy⟩) h))
  case ready =>
    obtain ⟨c, hnext⟩ := distance_ready (xd := xd) hpx hpy hx hy hv
    refine ⟨_, hnext, (withCur_sameRest _ c).trans (dspStored_sameRest _), dspStored_sr _, readW_distance hpx c _,
      fun r => ?_, (dspStored_data _).trans (accWrite_data s a v)⟩
    exact (initialised_afterPrefetches hx hy c r).trans (Bool.or_false _)

end Sys2Proof.Proofs
end

section
/-! Family 43_divide. The divides: the arithmetic of their quotients, what one execution writes, and how the executions
follow each other (spec/43_divide.md). -/

namespace Sys2Proof.Machine

/-! ### The arithmetic of a truncated division -/

/-- The remainder of a truncated division has the sign of the dividend (R381). -/
theorem mul_tmod_nonneg (n d : Int) : 0 ≤ n * n.tmod d := by
  rcases Int.le_total 0 n with h | h
  · exact mul_nonneg h (Int.tmod_nonneg d h)
  · have hneg : 0 ≤ -n.tmod d := Int.neg_tmod n d ▸ Int.tmod_nonneg d (neg_nonneg.2 h)
    exact mul_nonneg_of_nonpos_of_nonpos h (neg_nonneg.1 hneg)

theorem natAbs_tmod_lt {d : Int} (n : Int) (hd : d ≠ 0) : (n.tmod d).natAbs < d.natAbs := by
  rw [Int.natAbs_tmod]
  exact Nat.mod_lt _ (Int.natAbs_pos.2 hd)

/-- A signed number that fits a register is read back from it. -/
theorem toInt_ofInt_word {x : Int} (h : -32768 ≤ x ∧ x ≤ 32767) : (BitVec.ofInt 16 x).toInt = x :=
  BitVec.toInt_ofInt_eq_self (by decide) h.1 (show x < 32768 by omega)

/-- The registers of a truncated division whose quotient fits hold the exact quotient and remainder (R381, R385). -/
theorem truncated_registers {n d : Int} (hd : d ≠ 0) (hfit : -32768 ≤ d ∧ d ≤ 32767)
    (hquo : -32768 ≤ n.tdiv d ∧ n.tdiv d ≤ 32767) :
    (BitVec.ofInt 16 (n.tdiv d)).toInt * d + (BitVec.ofInt 16 (n.tmod d)).toInt = n ∧
      (BitVec.ofInt 16 (n.tmod d)).toInt.natAbs < d.natAbs ∧ 0 ≤ n * (BitVec.ofInt 16 (n.tmod d)).toInt := by
  have hlt := natAbs_tmod_lt n hd
  rw [toInt_ofInt_word hquo, toInt_ofInt_word (by omega)]
  exact ⟨Int.tdiv_mul_add_tmod n d, hlt, mul_tmod_nonneg n d⟩

/-- The quotient of a proper fraction fits a register (R385). -/
theorem fraction_fits {m d : Int} (h : m.natAbs < d.natAbs) :
    -32768 ≤ (m * 2 ^ 15).tdiv d ∧ (m * 2 ^ 15).tdiv d ≤ 32767 := by
  have hlt : ((m * 2 ^ 15).tdiv d).natAbs < 2 ^ 15 := by
    rw [Int.natAbs_tdiv]
    refine Nat.div_lt_of_lt_mul ?_
    rw [Int.natAbs_mul]
    exact Nat.mul_lt_mul_of_pos_right h (by decide)
  omega

/-! ### The frame of a divide -/

/-- `t` differs from `s` in W0, W1, N, OV, Z, C alone, among what `DivideKept` speaks of (R386). -/
structure PairAndFlagsOnly (s t : State) : Prop where
  rest : SameRest s t
  regs : RegsKept s t [0, 1]
  data : t.data = s.data
  srRest : SameSrRest s t
  dc : t.sr.dc = s.sr.dc

namespace PairAndFlagsOnly

theorem refl (s : State) : PairAndFlagsOnly s s :=
  ⟨SameRest.refl s, RegsKept.refl s _, rfl, ⟨rfl, rfl, rfl, rfl, rfl, rfl⟩, rfl⟩

theorem trans {s t u : State} (h : PairAndFlagsOnly s t) (k : PairAndFlagsOnly t u) : PairAndFlagsOnly s u where
  rest := h.rest.trans k.rest
  regs := (h.regs.trans k.regs).mono (by simp)
  data := k.data.trans h.data
  srRest := by
    obtain ⟨oa, ob, sa, sb, ipl, ra⟩ := h.srRest
    obtain ⟨oa', ob', sa', sb', ipl', ra'⟩ := k.srRest
    exact ⟨oa'.trans oa, ob'.trans ob, sa'.trans sa, sb'.trans sb, ipl'.trans ipl, ra'.trans ra⟩
  dc := k.dc.trans h.dc

/-- Using up free values changes the model's counter alone. -/
theorem withFree (s : State) (n : Nat) : PairAndFlagsOnly s { s with free := n } :=
  ⟨{ SameRest.refl s with }, fun _ _ => ⟨rfl, rfl⟩, rfl, ⟨rfl, rfl, rfl, rfl, rfl, rfl⟩, rfl⟩

theorem putWord (s : State) {r : RegNum} (hr : r ∈ [(0 : RegNum), 1]) (v : Word) : PairAndFlagsOnly s (s.putWord r v) :=
  ⟨putWord_sameRest s r v, (putWord_regsKept s r v).mono (by simpa using hr), rfl, ⟨rfl, rfl, rfl, rfl, rfl, rfl⟩, rfl⟩

theorem withFlags (s : State) (n ov z c : Bool) :
    PairAndFlagsOnly s (s.withSr { s.sr with n := n, ov := ov, z := z, c := c }) :=
  ⟨withSr_sameRest s _, fun _ _ => ⟨rfl, rfl⟩, rfl, ⟨rfl, rfl, rfl, rfl, rfl, rfl⟩, rfl⟩

/-- The progress is the one further thing that a divide writes (R386). -/
theorem divideKept {s t : State} (h : PairAndFlagsOnly s t) (d : Option DivProgress) :
    DivideKept s { t with div := d } :=
  ⟨{ h.rest with div := rfl }, h.regs, h.data, h.srRest, h.dc⟩

/-- The progress and the trap of a divide by zero (R387). -/
theorem divideKept_trapped {s t : State} (h : PairAndFlagsOnly s t) :
    DivideKept s { t with intcon1 := s.intcon1, pendingTraps := s.pendingTraps } :=
  ⟨{ h.rest with div := rfl, traps := ⟨rfl, rfl⟩ }, h.regs, h.data, h.srRest, h.dc⟩

end PairAndFlagsOnly

/-! ### Free values -/

theorem drawFlags_run (s : State) : ∃ t, drawFlags.run s = .ok () t ∧ PairAndFlagsOnly s t :=
  ⟨_, rfl, (PairAndFlagsOnly.withFree s _).trans (PairAndFlagsOnly.withFlags _ _ _ _ _)⟩

theorem drawPair_run (s : State) : ∃ t, drawPair.run s = .ok () t ∧ PairAndFlagsOnly s t :=
  ⟨_, rfl, (PairAndFlagsOnly.withFree s _).trans
    ((PairAndFlagsOnly.putWord _ (by decide) _).trans (PairAndFlagsOnly.putWord _ (by decide) _))⟩

/-- The quotient and remainder that a divide runs with are those of its operands, where they exist (U8). -/
theorem settle_run (quo : Quotient) (s : State) :
    ∃ p t, (settle quo).run s = .ok p t ∧ PairAndFlagsOnly s t ∧ ∀ qr, quo = some qr → p = qr := by
  cases quo with
  | some p => exact ⟨p, s, rfl, PairAndFlagsOnly.refl s, fun _ h => Option.some.inj h⟩
  | none => exact ⟨_, _, rfl, PairAndFlagsOnly.withFree s _, nofun⟩

/-! ### One execution -/

/-- An execution before the 18th leaves free values in W0 and W1 and counts itself (R386). -/
theorem divIterate_counts {k : Nat} (hk : k ≠ 18) (q r : Word) (s : State) :
    ∃ t, (divIterate k q r).run s = .ok () { t with div := some ⟨k, q, r, t.readW 0, t.readW 1⟩ } ∧
      PairAndFlagsOnly s t := by
  obtain ⟨u, hflags, hu⟩ := drawFlags_run s
  obtain ⟨t, hpair, ht⟩ := drawPair_run u
  refine ⟨t, ?_, hu.trans ht⟩
  rw [divIterate, run_bind_ok hflags, if_neg hk, run_bind_ok hpair, run_modS]

/-- The 18th execution writes the quotient and the remainder and ends the divide (R386). -/
theorem divIterate_last (q r : Word) (s : State) :
    ∃ t, (divIterate 18 q r).run s = .ok () { t with div := none } ∧ t.readW 0 = q ∧ t.readW 1 = r ∧
      PairAndFlagsOnly s t := by
  obtain ⟨u, hflags, hu⟩ := drawFlags_run s
  refine ⟨(u.putWord 0 q).putWord 1 r, ?run, ?quotient, ?remainder,
    hu.trans ((PairAndFlagsOnly.putWord u (by decide) q).trans (PairAndFlagsOnly.putWord _ (by decide) r))⟩
  case run =>
    rw [divIterate, run_bind_ok hflags, if_pos rfl, run_bind_ok (run_writeWord 0 q u),
      run_bind_ok (run_writeWord 1 r _), run_modS]
  case quotient =>
    rw [readW_putWord, if_neg (by decide), readW_putWord]
    rfl
  case remainder =>
    rw [readW_putWord]
    rfl

/-! ### Which execution it is -/

section
variable {s : State}

/-- A divide under way goes on, whatever its operands are now (R386). -/
theorem divStep_underWay {p : DivProgress} (h : s.divideUnderWay = some p) (zeroDivisor : Bool) (quo : Quotient) :
    (divStep zeroDivisor quo).run s = (divIterate (p.k + 1) p.q p.r).run s := by
  rw [divStep, run_bind_ok (run_getS s), h]

/-- The first execution of a divide (R386). -/
theorem divStep_starts (h : s.divideUnderWay = none) (quo : Quotient) :
    ∃ p t, (divStep false quo).run s = (divIterate 1 p.1 p.2).run t ∧ PairAndFlagsOnly s t ∧
      ∀ qr, quo = some qr → p = qr := by
  obtain ⟨p, t, hsettle, ht, hp⟩ := settle_run quo s
  refine ⟨p, t, ?_, ht, hp⟩
  rw [divStep, run_bind_ok (run_getS s), h]
  exact run_bind_ok hsettle

/-- The first execution of a divide by zero (R387). -/
theorem divStep_zero (h : s.divideUnderWay = none) (quo : Quotient) :
    ∃ t, (divStep true quo).run s =
        .error .ended ({ t with intcon1 := { t.intcon1 with div0err := true } }.pend .arithmetic) ∧
      PairAndFlagsOnly s t := by
  obtain ⟨u, hflags, hu⟩ := drawFlags_run s
  obtain ⟨t, hpair, ht⟩ := drawPair_run u
  refine ⟨t, ?_, hu.trans ht⟩
  rw [divStep, run_bind_ok (run_getS s), h]
  exact (run_bind_ok hflags).trans (run_bind_ok hpair)

end

/-! ### The five instructions -/

/-- The check of a 32-bit dividend refuses what `divideOf` gives no quotient (R380, R382). -/
theorem refuseNoPair_eq (hi lo : RegNum) :
    refuseNoPair hi lo = stopIf (!(evenBits lo && hi == lo + 1)) (.refused .oddPair) := by
  rw [refuseNoPair, evenBits, Bool.not_and, Bool.not_not, bne]

theorem refuseNoPair_ok {hi lo : RegNum} (h : (evenBits lo && hi == lo + 1) = true) (s : State) :
    (refuseNoPair hi lo).run s = .ok () s := by rw [refuseNoPair_eq, h, Bool.not_true, run_stopIf_false]

theorem refuseNoPair_stops {hi lo : RegNum} (h : ¬ (evenBits lo && hi == lo + 1) = true) (s : State) :
    (refuseNoPair hi lo).run s = .error (.refused .oddPair) s := by
  rw [refuseNoPair_eq, Bool.eq_false_iff.2 h, Bool.not_false, run_stopIf_true]

/-- The divide instructions are `divStep` with their divisor and quotient (R381 to R385). -/
theorem exec_divide {i : Instr} {s : State} {d : Word} {quo : Quotient} (h : divideOf i s = some (d, quo)) :
    exec i s = outcome (divStep (d == 0) quo) s := by
  unfold divideOf at h
  split at h
  case h_1 | h_3 | h_5 => cases h; rfl
  case h_2 | h_4 =>
    split at h
    case isTrue hpair => cases h; exact outcome_eq_of_run (run_bind_ok (refuseNoPair_ok hpair s))
    case isFalse => cases h
  case h_6 => cases h

/-- A 32-bit dividend that is no register pair is refused (U6, log 33). -/
theorem exec_divide_noPair {i : Instr} {s : State} {hi lo n : RegNum}
    (hinstr : i = .divSD hi lo n ∨ i = .divUD hi lo n) (h : divideOf i s = none) : exec i s = .refused .oddPair := by
  have hpair : ¬ (evenBits lo && hi == lo + 1) = true := fun hp => by
    rcases hinstr with rfl | rfl <;> exact nomatch (if_pos hp).symm.trans h
  have hstops := refuseNoPair_stops hpair s
  rcases hinstr with rfl | rfl <;> exact outcome_refused (run_bind_error hstops)

end Sys2Proof.Machine

namespace Sys2Proof.Proofs

open Sys2Proof.Machine

/-- Settles O44: `divStep` picks the execution, `divIterate_counts` and `divIterate_last` say what it leaves. -/
theorem divideSteps : Obligations.DivideSteps := by
  refine fun s i d quo => ⟨fun hi lo n h hnone => exec_divide_noPair h hnone, fun hdiv => ?_⟩
  rw [exec_divide hdiv]
  refine ⟨fun p hp hk => ?counts, fun p hp hk => ?last, fun hstart hd => ?first⟩
  case counts =>
    obtain ⟨t, hrun, ht⟩ := divIterate_counts (show p.k + 1 ≠ 18 by omega) p.q p.r s
    exact ⟨_, outcome_ok ((divStep_underWay hp _ quo).trans hrun), rfl, ht.divideKept _⟩
  case last =>
    obtain ⟨t, hrun, hq, hr, ht⟩ := divIterate_last p.q p.r s
    rw [← show p.k + 1 = 18 by omega] at hrun
    exact ⟨_, outcome_ok ((divStep_underWay hp _ quo).trans hrun), hq, hr, rfl, ht.divideKept _⟩
  case first =>
    obtain ⟨p, u, hstep, hu, hp⟩ := divStep_starts hstart quo
    obtain ⟨t, hrun, ht⟩ := divIterate_counts (show 1 ≠ 18 by decide) p.1 p.2 u
    rw [beq_false_of_ne hd]
    exact ⟨_, p.1, p.2, outcome_ok (hstep.trans hrun), rfl, hp, (hu.trans ht).divideKept _⟩

/-- Settles O45: a truncated division is exact, and so is the division of naturals. -/
theorem divideValues : Obligations.DivideValues := by
  refine ⟨fun n d hd hfit hquo => ?signed, fun n d hd hfit hquo => ?unsigned, fun m d hfit hlt => ?fractional⟩
  case signed => exact ⟨_, _, if_pos hquo, truncated_registers hd hfit hquo⟩
  case unsigned =>
    have hmod : n % d < d := Nat.mod_lt n (Nat.pos_of_ne_zero hd)
    refine ⟨_, _, if_pos hquo, ?_⟩
    rw [BitVec.toNat_ofNat, BitVec.toNat_ofNat, Nat.mod_eq_of_lt (show n / d < 2 ^ 16 by omega),
      Nat.mod_eq_of_lt (show n % d < 2 ^ 16 by omega)]
    exact ⟨Nat.div_add_mod' n d, hmod⟩
  case fractional =>
    have hd : d ≠ 0 := by omega
    obtain ⟨hvalue, hsmall, hsign⟩ := truncated_registers hd hfit (fraction_fits hlt)
    refine ⟨_, _, if_pos hlt, hvalue, hsmall, ?_⟩
    rw [mul_right_comm] at hsign
    exact nonneg_of_mul_nonneg_left hsign (by decide)

/-- Settles O46: the execution that would start the divide ends in the trap (`divStep_zero`). -/
theorem divideByZero : Obligations.DivideByZero := by
  intro s i quo hdiv hstart
  obtain ⟨t, hrun, ht⟩ := divStep_zero hstart quo
  obtain ⟨hpending, hintcon⟩ := ht.rest.traps
  refine ⟨_, (exec_divide hdiv).trans (outcome_ended hrun), ?status, ?trap, ht.divideKept_trapped⟩
  case status => rw [pend_intcon1, hintcon]
  case trap => rw [pend_pendingTraps, hpending]

end Sys2Proof.Proofs
end

section
/-! Family 44_control_flow. Calls, jumps and returns, the table read, the device Reset, and RETFIE as the inverse of the
entry of an exception (spec/44_control_flow.md, spec/60_exceptions.md R512, R525). -/

namespace Sys2Proof.Machine

/-! ### Even words and program addresses -/

theorem evenWord_of_even {v : Word} (h : evenBits v = true) : evenWord v = v := by
  have hmask : ∀ i < 16, (0xFFFE : Word).getLsbD i = (i != 0) := by decide
  have h0 : v.getLsbD 0 = false := by simpa [evenBits] using h
  apply BitVec.eq_of_getLsbD_eq
  intro i hi
  rw [evenWord, BitVec.getLsbD_and, hmask i hi]
  rcases Nat.eq_zero_or_pos i with rfl | hpos
  · rw [h0, Bool.false_and]
  · rw [bne_iff_ne.2 hpos.ne', Bool.and_true]

theorem evenBits_add_two {a : Word} (h : evenBits a = true) : evenBits (a + 2) = true := by
  rw [evenBits_toNat] at *
  bv_omega

/-- Bit 0 of a program address is bit 0 of its low half (R30). -/
theorem evenPc_append (x : BitVec 7) (v : Word) : evenPc (x ++ v) = x ++ v.extractLsb' 1 15 ++ 0#1 := by
  apply BitVec.eq_of_getLsbD_eq
  intro i hi
  simp only [evenPc, BitVec.getLsbD_and, BitVec.getLsbD_append, BitVec.getLsbD_extractLsb']
  interval_cases i <;> simp

theorem extract_evenWord (v : Word) : (evenWord v).extractLsb' 1 15 = v.extractLsb' 1 15 := by
  have hmask : (0xFFFE : Word).extractLsb' 1 15 = BitVec.allOnes 15 := by decide
  rw [evenWord, BitVec.extractLsb'_and, hmask, BitVec.and_allOnes]

/-- The address that two popped words name (R405). -/
theorem evenPc_returnAddress (hi lo : Word) :
    evenPc (returnAddress hi lo) = hi.extractLsb' 0 7 ++ lo.extractLsb' 1 15 ++ 0#1 := by
  rw [returnAddress, evenPc_append, extract_evenWord]

/-- An address outside 23 bits faults (R33). -/
theorem pcPlus_overflow {pc : PcAddr} {k : Int} (h : (pc.toNat : Int) + k < 0 ∨ 2 ^ 23 ≤ (pc.toNat : Int) + k)
    (s : State) : (pcPlus pc k).run s = .error (.fault .pcOverflow) s := by
  rw [run_pcPlus, if_neg (by omega)]

/-! ### The own target of an instruction -/

/-- The state with the own target of the instruction under way chosen (R13). -/
def State.jumping (s : State) (a : PcAddr) : State := { s with cur := { s.cur with jump := some a } }

theorem jumpTo_run (a : PcAddr) (s : State) : (jumpTo a).run s = .ok () (s.jumping (evenPc a)) := rfl

/-! ### Calls and returns -/

section
variable {s u : State} {target ra : PcAddr} {off : BitVec 16}

/-- Both words of a return address are stacked where both pushes are ready, the low one first (R132, R400). -/
theorem pushPcCall_ready (hlo : s.pushReady = true) (hhi : (s.pushed (pcLow ra)).pushReady = true) :
    (pushPcCall ra).run s = .ok () ((s.pushed (pcLow ra)).pushed (pcHigh ra)) := by
  rw [pushPcCall, run_bind_ok (push_ready hlo _), push_ready hhi]

/-- CALL stacks the address behind its two words (R401). -/
theorem exec_call_ready (hpc : s.pc.toNat + 4 < 2 ^ 23) (hra : ra = s.pc + 4) (hlo : s.pushReady = true)
    (hhi : (s.pushed (pcLow ra)).pushReady = true) :
    exec (.call target) s =
      .next (((s.pushed (pcLow ra)).pushed (pcHigh ra)).jumping (evenPc target)) := by
  have hnext : (pcPlus s.pc 4).run s = .ok ra s := hra ▸ pcPlus_natCast (k := 4) hpc s
  show execCall target s = _
  unfold execCall
  refine outcome_ok ?_
  rw [run_bind_ok hnext, run_bind_ok (pushPcCall_ready hlo hhi), jumpTo_run]

/-- RCALL stacks the address behind its one word (R402). -/
theorem exec_rcall_ready (hpc : s.pc.toNat + 2 < 2 ^ 23) (hra : ra = s.pc + 2)
    (h0 : 0 ≤ (s.pc.toNat : Int) + (2 + 2 * off.toInt)) (h1 : (s.pc.toNat : Int) + (2 + 2 * off.toInt) < 2 ^ 23)
    (hlo : s.pushReady = true) (hhi : (s.pushed (pcLow ra)).pushReady = true) :
    exec (.rcall off) s =
      .next (((s.pushed (pcLow ra)).pushed (pcHigh ra)).jumping
        (evenPc (BitVec.ofInt 23 ((s.pc.toNat : Int) + (2 + 2 * off.toInt))))) := by
  have hnext : (pcPlus s.pc 2).run s = .ok ra s := hra ▸ pcPlus_natCast (k := 2) hpc s
  show execRcall off s = _
  unfold execRcall
  refine outcome_ok ?_
  rw [run_bind_ok hnext, run_bind_ok (pcPlus_ok h0 h1 s), run_bind_ok (pushPcCall_ready hlo hhi), jumpTo_run]

/-- RCALL computes both addresses before it stacks anything, and either may leave 23 bits (R33). -/
theorem exec_rcall_overflow
    (h : 2 ^ 23 ≤ s.pc.toNat + 2 ∨ (s.pc.toNat : Int) + (2 + 2 * off.toInt) < 0 ∨
      2 ^ 23 ≤ (s.pc.toNat : Int) + (2 + 2 * off.toInt)) :
    exec (.rcall off) s = .fault .pcOverflow := by
  show execRcall off s = _
  unfold execRcall
  refine outcome_fault (t := s) ?_
  rcases Nat.lt_or_ge (s.pc.toNat + 2) (2 ^ 23) with hpc | hpc
  · have htarget := h.resolve_left (Nat.not_le.2 hpc)
    have hnext : (pcPlus s.pc 2).run s = .ok (s.pc + 2) s := pcPlus_natCast (k := 2) hpc s
    rw [run_bind_ok hnext, run_bind_error (pcPlus_overflow htarget s)]
  · exact run_bind_error (pcPlus_overflow (.inr (by omega)) s)

/-- The return address comes off the stack with its high word first (R405). -/
theorem returnFromCall_ready (hhi : u.popReady = true) (hlo : u.popped.popReady = true) :
    returnFromCall.run u =
      .ok () (u.popped.popped.jumping (evenPc (returnAddress u.popValue u.popped.popValue))) := by
  rw [returnFromCall, run_bind_ok (pop_ready hhi), run_bind_ok (pop_ready hlo), jumpTo_run]

/-- RETLW W15 would write one register twice (U5, log 17). -/
theorem exec_retlw_w15 (s : State) (byte : Bool) (lit : BitVec 10) :
    exec (.retlw byte lit 15) s = .refused .conflictingModification := by
  show execRetlw byte lit 15 s = _
  unfold execRetlw
  exact outcome_refused (run_bind_error (refuseConflict_stops (beq_self_eq_true _) s))

/-- RETLW writes its literal and then returns (R406). -/
theorem exec_retlw_eq {d : RegNum} (hd : d ≠ 15) (byte : Bool) (lit : BitVec 10) :
    exec (.retlw byte lit d) s = outcome returnFromCall (s.putReg byte d (lit.setWidth 16)) := by
  show execRetlw byte lit d s = _
  unfold execRetlw
  refine outcome_eq_of_run ?_
  rw [run_bind_ok (refuseConflict_ok (beq_eq_false_iff_ne.2 hd) s), run_bind_ok (writeReg_run s byte d _)]

end

/-! ### Table reads -/

/-- A table access goes to the program address that TBLPAG and the pointer make (R122). -/
def State.tablePc (s : State) (ea : Word) : PcAddr := s.tblpag.extractLsb' 0 7 ++ ea.extractLsb' 1 15 ++ 0#1

/-- What TBLRDL does once its pointer has given the address `ea` (R440). -/
def tableLoad (byte : Bool) (dst : Operand) (ea : Word) : M Unit := do
  addressErrorIf (!byte && ea.getLsbD 0)
  let pa ← tableAddress ea
  let d ← progData pa
  writeOperand 0 byte dst (laneOrWord byte ea d)

section
variable {s : State} {byte : Bool} {dst src : Operand} {ea : Word}

theorem tableAddress_fault (h : s.tblpag.getLsbD 7 = true) :
    (tableAddress ea).run s = .error (.fault .tableAddress) s := by
  rw [tableAddress, run_bind_ok (run_getS s), h]
  rfl

theorem tableAddress_ok (h : s.tblpag.getLsbD 7 = false) : (tableAddress ea).run s = .ok (s.tablePc ea) s := by
  rw [tableAddress, run_bind_ok (run_getS s), h, run_bind_ok (run_stopIf_false _ s), evenPc_append]
  rfl

theorem progData_ok {a : PcAddr} (h : s.progImplemented a = true) :
    (progData a).run s = .ok ((s.progWord a).extractLsb' 0 16) s := by
  rw [progData, run_bind_ok (run_getS s), h]
  rfl

/-- An operation that stops answers as its stop does (R13). -/
theorem outcome_stops {m : M Unit} {t : State} {e : Stop} (h : m.run s = .error e t) :
    outcome m s = outcome (stopWith e) t := outcome_eq_of_run (h.trans (run_stopWith e t).symm)

theorem tableLoad_misaligned {t : State} {e : Stop} (hea : ea.getLsbD 0 = true)
    (h : (addressErrorIf true).run s = .error e t) : (tableLoad false dst ea).run s = .error e t := by
  rw [tableLoad, hea]
  exact run_bind_error h

theorem tableLoad_fault (hea : byte = true ∨ ea.getLsbD 0 = false) (h : s.tblpag.getLsbD 7 = true) :
    (tableLoad byte dst ea).run s = .error (.fault .tableAddress) s := by
  rw [tableLoad, notMisaligned hea, run_bind_ok (run_addressErrorIf_false s), run_bind_error (tableAddress_fault h)]

theorem tableLoad_ready (hea : byte = true ∨ ea.getLsbD 0 = false) (hpag : s.tblpag.getLsbD 7 = false)
    (himpl : s.progImplemented (s.tablePc ea) = true) (hd : s.destReady 0 byte dst = true) :
    (tableLoad byte dst ea).run s =
      .ok () (s.afterDest 0 byte dst (laneOrWord byte ea ((s.progWord (s.tablePc ea)).extractLsb' 0 16))) := by
  rw [tableLoad, notMisaligned hea, run_bind_ok (run_addressErrorIf_false s), run_bind_ok (tableAddress_ok hpag),
    run_bind_ok (progData_ok himpl), writeOperand_ready hd]

theorem exec_tblrdl_direct (h : src.isDirect = true) : exec (.tblrdl byte dst src) s = .refused .reservedOperand := by
  show execTblrdl byte dst src s = _
  unfold execTblrdl
  rw [h]
  exact outcome_refused (run_bind_error (run_stopIf_true _ s))

/-- A source that modifies its register is no direct one, so a conflict is what TBLRDL is refused for (R201). -/
theorem isDirect_of_conflicts (h : conflicts src dst = true) : src.isDirect = false := by
  cases hd : src.isDirect with
  | false => rfl
  | true =>
    have hm : src.mode = .direct := beq_iff_eq.1 hd
    simp [conflicts, Operand.modifies, hm] at h

theorem exec_tblrdl_conflict (h : conflicts src dst = true) :
    exec (.tblrdl byte dst src) s = .refused .conflictingModification := by
  show execTblrdl byte dst src s = _
  unfold execTblrdl
  rw [isDirect_of_conflicts h]
  exact outcome_refused ((run_bind_ok (run_stopIf_false _ s)).trans (run_bind_error (refuseConflict_stops h s)))

/-- TBLRDL forms the address of its source operand, and reads program memory there (R440). -/
theorem exec_tblrdl_addressed (hd : src.isDirect = false) (hc : conflicts src dst = false)
    (ha : s.addressable 0 (stepOf byte) src = true) (hl : (src.usesStack 0 && s.last.splim) = false) :
    exec (.tblrdl byte dst src) s =
      outcome (tableLoad byte dst (s.effective 0 (stepOf byte) src)) (s.beforeSourceRead 0 (stepOf byte) src) := by
  show execTblrdl byte dst src s = _
  unfold execTblrdl
  refine outcome_eq_of_run ?_
  rw [hd, run_bind_ok (run_stopIf_false _ s), run_bind_ok (refuseConflict_ok hc s),
    run_bind_ok (sourceAddress_ready ha hl)]
  rfl

/-- The word or the byte lane of the low word of a program word (R108, R440). -/
theorem laneOrWord_progWord (byte : Bool) (a : Word) (w : ProgWord) :
    laneOrWord byte a (w.extractLsb' 0 16) =
      if byte then (if a.getLsbD 0 then w.extractLsb' 8 8 else w.extractLsb' 0 8).setWidth 16
      else w.extractLsb' 0 16 := by
  rw [laneOrWord, lane_progWord]

/-- Program memory, and which address a table access has, are as they were after a step that kept them. -/
theorem SameRest.table {s t : State} (h : SameRest s t) (ea : Word) :
    t.tablePc ea = s.tablePc ea ∧ t.progImplemented (t.tablePc ea) = s.progImplemented (s.tablePc ea) ∧
      t.progWord (t.tablePc ea) = s.progWord (s.tablePc ea) := by
  have htable : t.tablePc ea = s.tablePc ea := by rw [State.tablePc, h.pages.1, State.tablePc]
  refine ⟨htable, ?impl, ?word⟩
  case impl => rw [htable, State.progImplemented, h.dev, State.progImplemented]
  case word => rw [htable, State.progWord, h.prog, State.progWord]

end

/-! ### The device Reset -/

theorem deviceReset_notePrefetch (s : State) : deviceReset s.notePrefetch = deviceReset s := by
  unfold State.notePrefetch
  split
  · exact deviceReset_congr rfl rfl rfl
  · rfl

/-- Nothing that a device Reset leaves is a hazard of a DO loop (R472, R576). -/
theorem deviceReset_noHazard (i : Instr) (s t : State) :
    (loopRegsHazard i s (deviceReset t) || iplHazard i s (deviceReset t)) = false := rfl

/-- The instruction that resets the device leaves no mark of its own, but for RETLW, which marks its register. -/
theorem recentAfter_deviceReset {i : Instr} (hi : ∀ byte lit d, i ≠ .retlw byte lit d) (s : State) :
    recentAfter i (deviceReset s) = Recent.empty := by
  cases i with
  | retlw byte lit d => exact absurd rfl (hi byte lit d)
  | _ => rfl

theorem heldAfter_deviceReset (i : Instr) (s : State) : heldAfter i (deviceReset s) = [] := by
  cases i <;> rfl

/-- A pc that is where the step goes stays, and so does an early termination that is not pending (R474). -/
theorem moved_eq_self {t : State} {a : PcAddr} (hpc : t.pc = a) (he : t.edtPending = none) : t.moved a = t := by
  subst hpc
  unfold State.moved State.advanceEdt
  split
  · rfl
  · cases t
    cases he
    rfl

theorem deviceReset_moved (s : State) : (deviceReset s).moved 0 = deviceReset s :=
  moved_eq_self (deviceReset_pc s) (deviceReset_edtPending s)

/-- The step of an instruction that resets the device ends in the reset state (R432, R562). -/
theorem finish_deviceReset {i : Instr} (hi : ∀ byte lit d, i ≠ .retlw byte lit d) (s t : State) :
    finish i s (deviceReset t) = .next { deviceReset t with cur := Scratch.empty } := by
  have hdisi : BitVec.ofNat 14 ((deviceReset t).disicnt.toNat - stepCycles i (deviceReset t)) = 0 := by
    show BitVec.ofNat 14 (0 - _) = 0
    rw [Nat.zero_sub]
    rfl
  rw [finish_eq_closed (deviceReset_noHazard i s t) (choosePc_of_jump (deviceReset_jump t) _ _), deviceReset_moved,
    State.closed, hdisi, recentAfter_deviceReset hi, heldAfter_deviceReset]
  rfl

/-! ### The return from an exception -/

/-- A pop leaves what the instruction under way has done, but for its marks of W15 and of a PSV read (R131, R590). -/
theorem popped_cur (s : State) : ∃ psv, s.popped.cur =
    { s.cur with
      srcEa := s.cur.srcEa ||| regBit 15
      psv := psv
      recent := { s.cur.recent with wrote := s.cur.recent.wrote ||| regBit 15 } } := by
  unfold State.popped State.afterRead
  split <;> exact ⟨_, rfl⟩

@[simp] theorem popped_last (s : State) : s.popped.last = s.last := afterRead_last _ _

@[simp] theorem popped_held (s : State) : s.popped.held = s.held := by
  unfold State.popped State.afterRead
  split <;> rfl

theorem popped_twice_sameRest (s : State) : SameRest s s.popped.popped :=
  (popped_sameRest s).trans (popped_sameRest s.popped)

/-- What the rules about the loops and about the next instruction look at, after two pops (R472, R570, R575). -/
theorem popped_twice_cur (s : State) :
    s.popped.popped.cur.ipl = s.cur.ipl ∧ s.popped.popped.cur.loopRegs = s.cur.loopRegs ∧
    s.popped.popped.cur.recent.splim = s.cur.recent.splim ∧
    s.popped.popped.cur.recent.doend = s.cur.recent.doend := by
  obtain ⟨_, h1⟩ := popped_cur s
  obtain ⟨_, h2⟩ := popped_cur s.popped
  rw [h2, h1]
  exact ⟨rfl, rfl, rfl, rfl⟩

/-- The state in which a return from an exception ends: `hi` is the word with the status, `a` the interrupted pc, and
both words are off the stack (R407). -/
def State.returning (u : State) (hi : Word) (a : PcAddr) : State := (u.restoreStatus hi).jumping a

section
variable (u : State) (hi : Word) (a : PcAddr)

theorem returning_srl : (u.returning hi a).srl = hi.extractLsb' 8 8 := by
  apply BitVec.eq_of_getLsbD_eq
  intro i h8
  simp only [State.returning, State.jumping, State.srl, State.restoreStatus, BitVec.getLsbD_append,
    BitVec.getLsbD_extractLsb']
  interval_cases i <;> simp

/-- SR[15:8] has no bit that RETFIE writes (R407). -/
theorem returning_srh : (u.returning hi a).srh = u.srh := rfl

theorem returning_corcon : (u.returning hi a).corcon = { u.corcon with ipl3 := hi.getLsbD 7 } := rfl

theorem returning_sameRest : SameRest u { u.returning hi a with corcon := u.corcon } := { SameRest.refl u with }

theorem returning_regsKept : RegsKept u (u.returning hi a) [] := fun _ _ => ⟨rfl, rfl⟩

theorem returning_readW (r : RegNum) : (u.returning hi a).readW r = u.readW r := rfl

theorem returning_data : (u.returning hi a).data = u.data := rfl

theorem returning_held : (u.returning hi a).held = u.held := rfl

theorem returning_cur : (u.returning hi a).cur =
    { u.cur with ipl := u.cur.ipl || hi.extractLsb' 13 3 != u.sr.ipl, jump := some a } := rfl

theorem returning_marks :
    (u.returning hi a).cur.loopRegs = u.cur.loopRegs ∧
    (u.returning hi a).cur.recent.splim = u.cur.recent.splim ∧
    (u.returning hi a).cur.recent.doend = u.cur.recent.doend := ⟨rfl, rfl, rfl⟩

theorem returning_ipl : (u.returning hi a).sr.ipl = hi.extractLsb' 13 3 := rfl

end

/-- RETFIE pops the status and the pc (R407). -/
theorem exec_retfie_ready {s : State} (hhi : s.popReady = true) (hlo : s.popped.popReady = true) :
    exec .retfie s =
      .next (s.popped.popped.returning s.popValue (evenPc (returnAddress s.popValue s.popped.popValue))) := by
  show execRetfie s = _
  unfold execRetfie returnFromException
  refine outcome_ok ?_
  rw [run_bind_ok (pop_ready hhi), run_bind_ok (pop_ready hlo), run_bind_ok (run_modS _ _), jumpTo_run,
    State.returning]

/-- What the pops and the return leave of the state before RETFIE. -/
theorem returning_popped_kept (s : State) (hi : Word) (a : PcAddr) :
    (s.popped.popped.returning hi a).corcon = { s.corcon with ipl3 := hi.getLsbD 7 } ∧
    (s.popped.popped.returning hi a).srh = s.srh ∧ RegsKept s (s.popped.popped.returning hi a) [15] ∧
    (s.popped.popped.returning hi a).data = s.data ∧
    SameRest s { s.popped.popped.returning hi a with corcon := s.corcon } ∧
    (s.popped.popped.returning hi a).held = s.held := by
  have hrest := popped_twice_sameRest s
  have hsr : s.popped.popped.sr = s.sr := by rw [popped_sr, popped_sr]
  have hregs := ((popped_regsKept s).trans (popped_regsKept s.popped)).trans
    (returning_regsKept s.popped.popped hi a)
  refine ⟨?corcon, ?srh, hregs.mono (by simp), ?data, ?rest, ?held⟩
  case corcon => rw [returning_corcon, hrest.corcon]
  case srh => rw [returning_srh, State.srh, State.srh, State.da, State.da, hsr, hrest.corcon]
  case data => rw [returning_data, popped_data, popped_data]
  case rest =>
    rw [← hrest.corcon]
    exact hrest.trans (returning_sameRest s.popped.popped hi a)
  case held => rw [returning_held, popped_held, popped_held]

/-! ### Pops from RAM -/

section
variable {s : State} {a : Word}

theorem even_of_writable (h : s.writable false a = true) : evenBits a = true := by
  obtain ⟨hr, -, -⟩ := readable_of_writable h
  rw [evenBits, even_of_readable hr]
  rfl

theorem beforePopRead_readW_15 (hsp : s.readW 15 = a + 2) (ha : evenBits a = true) : s.beforePopRead.readW 15 = a := by
  have h : s.beforePopRead.readW 15 = evenWord (s.readW 15 - 2) := readW_putWord _ 15 15 _
  rw [h, hsp, BitVec.add_sub_cancel, evenWord_of_even ha]

/-- A pop of a word of RAM gives that word, and leaves W15 on it (R131). -/
theorem pop_ram (hsp : s.readW 15 = a + 2) (hw : s.writable false a = true) (hl : s.last.splim = false)
    (hb : s.stackBad a false = false) :
    s.popReady = true ∧ s.popValue = s.load false a ∧ s.popped.readW 15 = a := by
  have hea := beforePopRead_readW_15 hsp (even_of_writable hw)
  have hrest := beforePopRead_sameRest s
  obtain ⟨hread, hvalue, -⟩ := readable_of_writable ((hrest.writable false a).trans hw)
  refine ⟨?ready, ?value, ?pointer⟩
  case ready => rw [State.popReady, hea, hb, hl, hread]; rfl
  case value => rw [State.popValue, hea, hvalue]; rfl
  case pointer => rw [popped_readW_15, hsp, BitVec.add_sub_cancel, evenWord_of_even (even_of_writable hw)]

/-- Both words of a frame in RAM come off the stack (R131, R407). -/
theorem pop_ram_twice (hsp : s.readW 15 = a + 2 + 2) (hlo : s.writable false a = true)
    (hhi : s.writable false (a + 2) = true) (hl : s.last.splim = false) (hblo : s.stackBad a false = false)
    (hbhi : s.stackBad (a + 2) false = false) :
    s.popReady = true ∧ s.popValue = s.load false (a + 2) ∧ s.popped.popReady = true ∧
      s.popped.popValue = s.load false a ∧ s.popped.popped.readW 15 = a := by
  have hrest := popped_sameRest s
  obtain ⟨hready, hvalue, hmid⟩ := pop_ram hsp hhi hl hbhi
  obtain ⟨hready', hvalue', hend⟩ := pop_ram hmid ((hrest.writable false a).trans hlo) (by rw [popped_last, hl])
    ((hrest.stackBad a false).trans hblo)
  refine ⟨hready, hvalue, hready', hvalue'.trans ?_, hend⟩
  rw [State.load, State.ramWord, popped_data]
  rfl

end

/-! ### The entry of an exception -/

/-- A stack violation is noted before a push of the entry, which is made all the same (R512, D26). -/
def State.stackNoted (s : State) : State := if s.stackBad (s.readW 15) false then s.pend .stack else s

theorem stackNoted_cases {p : State → Prop} {s : State} (hpend : p (s.pend .stack)) (hs : p s) : p s.stackNoted := by
  unfold State.stackNoted
  split
  · exact hpend
  · exact hs

@[simp] theorem readW_stackNoted (s : State) (r : RegNum) : s.stackNoted.readW r = s.readW r :=
  stackNoted_cases (p := fun t => t.readW r = s.readW r) rfl rfl

@[simp] theorem stackNoted_data (s : State) : s.stackNoted.data = s.data :=
  stackNoted_cases (p := fun t => t.data = s.data) rfl rfl

@[simp] theorem stackNoted_sr (s : State) : s.stackNoted.sr = s.sr :=
  stackNoted_cases (p := fun t => t.sr = s.sr) rfl rfl

@[simp] theorem stackNoted_corcon (s : State) : s.stackNoted.corcon = s.corcon :=
  stackNoted_cases (p := fun t => t.corcon = s.corcon) rfl rfl

@[simp] theorem stackNoted_dev (s : State) : s.stackNoted.dev = s.dev :=
  stackNoted_cases (p := fun t => t.dev = s.dev) rfl rfl

/-- The state after a push of the entry (R512). -/
def State.entryPushed (s : State) (v : Word) : State := s.stackNoted.pushed v

theorem entryPushed_readW_15 (s : State) (v : Word) : (s.entryPushed v).readW 15 = evenWord (s.readW 15 + 2) := by
  rw [State.entryPushed, pushed_readW_15, readW_stackNoted]

theorem entryPushed_writable (s : State) (v a : Word) : (s.entryPushed v).writable false a = s.writable false a := by
  rw [State.entryPushed, (pushed_sameRest _ v).writable, State.writable, State.inRam, stackNoted_dev, stackNoted_corcon,
    State.writable, State.inRam]

theorem entryPushed_wf {s : State} (h : s.data.wf = true) (v : Word) : (s.entryPushed v).data.wf = true :=
  store_wf (by rwa [stackNoted_data]) false _ v

theorem entryPushed_load {s : State} (h : s.data.wf = true) (v : Word) :
    (s.entryPushed v).load false (s.readW 15) = v := by
  rw [← readW_stackNoted s 15]
  exact pushed_load (by rwa [stackNoted_data]) v

/-- A push of the entry keeps the word below it. -/
theorem entryPushed_load_below {s : State} {a : Word} (h : a.toNat + 2 ≤ (s.readW 15).toNat) (v : Word) :
    (s.entryPushed v).load false a = s.load false a := by
  have hkept : ∀ k, k < a.toNat + 2 → (s.entryPushed v).data.read k = s.data.read k := by
    intro k hk
    rw [State.entryPushed, pushed_ramKept s.stackNoted v k (by rw [readW_stackNoted]; omega), stackNoted_data]
  show (s.entryPushed v).ramWord a = s.ramWord a
  rw [State.ramWord, State.ramWord, hkept _ (by omega), hkept _ (by omega)]

theorem entryPushed_stackedStatus (s : State) (v : Word) (ra : PcAddr) :
    (s.entryPushed v).stackedStatus ra = s.stackedStatus ra := by
  have hsr : (s.entryPushed v).sr = s.sr := stackNoted_sr s
  have hcorcon : (s.entryPushed v).corcon = s.corcon := stackNoted_corcon s
  rw [State.stackedStatus, State.srl, hsr, hcorcon, State.stackedStatus, State.srl]

theorem pushInEntry_ready {s : State} (h : s.writable false (s.readW 15) = true) (v : Word) :
    (pushInEntry v).run s = .ok () (s.entryPushed v) := by
  have hw : s.stackNoted.writable false (s.readW 15) = true := by
    rw [State.writable, State.inRam, stackNoted_dev, stackNoted_corcon]
    exact h
  rw [pushInEntry, run_bind_ok (run_readW 15 s), run_bind_ok (run_modS _ s)]
  show (memWrite false (s.readW 15) v >>= _).run s.stackNoted = _
  rw [run_bind_ok (memWrite_ready hw v), run_bind_ok (run_readW 15 _), run_writeWord, State.entryPushed, State.pushed,
    readW_store, readW_stackNoted]

/-- The stack frame of an exception: the pc, and above it SRL with IPL3 (R132, R512). -/
def State.framePushed (s : State) : State := (s.entryPushed (pcLow s.pc)).entryPushed (s.stackedStatus s.pc)

/-- The state in which the entry of an exception ends, its frame being stacked as in `u` (R512 to R514, log 35). -/
def State.enteredOn (u s : State) (e : Exc) : State :=
  let t := { u with sr := { u.sr with ra := false } }.enterLevel e
  { t with pc := vectorOf t.dev e, cur := Scratch.empty, last := { s.last with wrote := 0 }, held := s.suspend }

/-- The entry of an exception whose frame goes to RAM (R512). -/
theorem enterException_ready {s : State} (hlo : s.writable false (s.readW 15) = true)
    (hhi : s.writable false (evenWord (s.readW 15 + 2)) = true) (e : Exc) :
    (enterException e).run s = .ok () (s.framePushed.enteredOn s e) := by
  have hhi' : (s.entryPushed (pcLow s.pc)).writable false ((s.entryPushed (pcLow s.pc)).readW 15) = true := by
    rw [entryPushed_readW_15, entryPushed_writable, hhi]
  rw [enterException, run_bind_ok (run_getS s), run_bind_ok (pushInEntry_ready hlo _), run_bind_ok (run_getS _),
    run_bind_ok (pushInEntry_ready hhi' _), run_bind_ok (run_modS _ _), run_modS, entryPushed_stackedStatus]
  rfl

section
variable (u s : State) (e : Exc)

theorem enteredOn_readW (r : RegNum) : (u.enteredOn s e).readW r = u.readW r := by cases e <;> rfl

theorem enteredOn_load (a : Word) : (u.enteredOn s e).load false a = u.load false a := by cases e <;> rfl

theorem enteredOn_held : (u.enteredOn s e).held = s.suspend := rfl

end

/-- The frame as it stands in RAM: the pc at the old W15, the status above it, and W15 above both (R132, R512). -/
theorem framePushed_loads {s : State} {sp : Word} (hwf : s.data.wf = true) (hsp : s.readW 15 = sp)
    (he : evenBits sp = true) (hb : sp.toNat + 4 < 2 ^ 16) :
    s.framePushed.readW 15 = sp + 2 + 2 ∧ s.framePushed.load false sp = pcLow s.pc ∧
      s.framePushed.load false (sp + 2) = s.stackedStatus s.pc := by
  subst hsp
  have he2 := evenBits_add_two he
  have hmid : (s.entryPushed (pcLow s.pc)).readW 15 = s.readW 15 + 2 := by
    rw [entryPushed_readW_15, evenWord_of_even he2]
  refine ⟨?pointer, ?low, ?high⟩
  case pointer => rw [State.framePushed, entryPushed_readW_15, hmid, evenWord_of_even (evenBits_add_two he2)]
  case low =>
    rw [State.framePushed, entryPushed_load_below (by rw [hmid]; bv_omega), entryPushed_load hwf]
  case high =>
    rw [← hmid]
    exact entryPushed_load (entryPushed_wf hwf _) _

/-- What the step of an accepted exception leaves for the return from it (R512, log 35). -/
theorem step_entry {s t : State} {e : Exc} {sp : Word} (hinv : s.Inv) (hreset : s.resetReq = false)
    (hacc : s.accepted = some e) (hsp : s.readW 15 = sp) (hlo : s.writable false sp = true)
    (hhi : s.writable false (sp + 2) = true) (hb : sp.toNat + 4 < 2 ^ 16) (hstep : step s = .next t) :
    t.held = s.suspend ∧ t.readW 15 = sp + 2 + 2 ∧ t.load false sp = pcLow s.pc ∧
      t.load false (sp + 2) = s.stackedStatus s.pc := by
  have he := even_of_writable hlo
  have hrun := enterException_ready (by rwa [hsp]) (by rwa [hsp, evenWord_of_even (evenBits_add_two he)]) e
  rw [step, if_neg (by rw [hreset]; exact Bool.false_ne_true), hacc] at hstep
  obtain rfl : _ = t := Host.Outcome.next.inj ((outcome_ok hrun).symm.trans hstep)
  rw [enteredOn_readW, enteredOn_load, enteredOn_load]
  exact ⟨enteredOn_held _ s e, framePushed_loads hinv.dataForm hsp he hb⟩

/-! ### RETFIE after the entry of an exception -/

/-- The two stacked words give back what the entry stacked (R132, R407, D11). -/
theorem stackedStatus_fields (s : State) (ra : PcAddr) :
    (s.stackedStatus ra).extractLsb' 8 8 = s.srl ∧ (s.stackedStatus ra).getLsbD 7 = s.corcon.ipl3 ∧
      (s.stackedStatus ra).extractLsb' 0 7 = ra.extractLsb' 16 7 := by
  refine ⟨BitVec.extractLsb'_append_eq_left, ?ipl3, ?pc⟩
  case ipl3 =>
    rw [State.stackedStatus, BitVec.getLsbD_append, BitVec.getLsbD_append]
    simp
  case pc =>
    rw [State.stackedStatus, BitVec.extractLsb'_append_eq_of_add_le (by decide)]
    exact BitVec.extractLsb'_append_eq_right

theorem pc_halves (a : PcAddr) : a.extractLsb' 16 7 ++ pcLow a = a := by
  apply BitVec.eq_of_getLsbD_eq
  intro i hi
  rw [pcLow, BitVec.getLsbD_append, BitVec.getLsbD_extractLsb', BitVec.getLsbD_extractLsb']
  by_cases h : i < 16
  · simp [h]
  · simp [h, show i - 16 < 7 by omega, show 16 + (i - 16) = i by omega]

/-- The return goes to the interrupted pc (R407, R512). -/
theorem returnAddress_stacked {s : State} {ra : PcAddr} (h : evenBits ra = true) :
    evenPc (returnAddress (s.stackedStatus ra) (pcLow ra)) = ra := by
  obtain ⟨-, -, hhigh⟩ := stackedStatus_fields s ra
  have hlow : evenBits (pcLow ra) = true := by simpa [evenBits, pcLow] using h
  rw [returnAddress, hhigh, evenWord_of_even hlow, pc_halves, evenPc_of_even h]

/-- What is known of the interrupted program is found again at its frame and its pc, with its marks; where nothing is
known, there was no mark (log 35). -/
theorem suspend_find (s : State) :
    s.suspend.find? (fun x => !x.differs (s.readW 15) s.pc) =
      if s.last.splim || s.last.doend then some ⟨s.readW 15, s.pc, { s.last with wrote := 0 }⟩ else none := by
  have hrest : (s.held.filter (Suspended.differs (s.readW 15) s.pc)).find?
      (fun x => !x.differs (s.readW 15) s.pc) = none := by
    refine List.find?_eq_none.2 fun x hx => ?_
    rw [(List.mem_filter.1 hx).2]
    exact Bool.false_ne_true
  unfold State.suspend
  dsimp only
  split
  · exact List.find?_cons_of_pos (by simp [Suspended.differs])
  · exact hrest

/-- RETFIE takes up the marks that the entry put by, on the frame and at the pc of the entry (R570, R575, log 35). -/
theorem recentAfter_retfie {s u : State} (hjump : u.cur.jump = some s.pc) (hsp : u.readW 15 = s.readW 15)
    (hheld : u.held = s.suspend) (hsplim : u.cur.recent.splim = false) (hdoend : u.cur.recent.doend = false) :
    (recentAfter .retfie u).splim = s.last.splim ∧ (recentAfter .retfie u).doend = s.last.doend := by
  have hfound : u.resumed s.pc =
      if s.last.splim || s.last.doend then some ⟨s.readW 15, s.pc, { s.last with wrote := 0 }⟩ else none := by
    rw [State.resumed, hsp, hheld, suspend_find]
  rw [recentAfter, hjump, Option.bind_some, hfound]
  by_cases h : (s.last.splim || s.last.doend) = true
  · rw [if_pos h]
    exact ⟨rfl, rfl⟩
  · obtain ⟨h1, h2⟩ := Bool.or_eq_false_iff.1 (Bool.eq_false_iff.2 h)
    rw [if_neg h, h1, h2]
    exact ⟨hsplim, hdoend⟩

/-- As the last instruction of the only loop RETFIE is no hazard, for it takes its own target (R470, R576). -/
theorem iplHazard_ownTarget {i : Instr} {s t : State} (hpc : s.pc = s.doend) (hdl : s.corcon.dl = 0 ∨ s.corcon.dl = 1)
    (hj : t.cur.jump.isSome = true) : iplHazard i s t = false := by
  unfold iplHazard State.loops
  rcases hdl with h | h
  · simp [h]
  · simp [h, hpc, hj]

/-- The step of a RETFIE to the pc of the entry ends there, with the marks of the program that goes on (R14, R476). -/
theorem finish_retfie {s h u : State} (hloop : u.cur.loopRegs = false) (hipl : iplHazard .retfie h u = false)
    (hjump : u.cur.jump = some s.pc) (hsp : u.readW 15 = s.readW 15) (hheld : u.held = s.suspend)
    (hsplim : u.cur.recent.splim = false) (hdoend : u.cur.recent.doend = false) :
    ∃ v, finish .retfie h u = .next v ∧ v.pc = s.pc ∧ v.last.splim = s.last.splim ∧ v.last.doend = s.last.doend := by
  have hz : (loopRegsHazard .retfie h u || iplHazard .retfie h u) = false := by
    rw [loopRegsHazard, hloop, Bool.false_and, hipl]
    rfl
  exact ⟨_, finish_eq_closed hz (choosePc_of_jump hjump _ _), rfl,
    recentAfter_retfie hjump hsp hheld hsplim hdoend⟩

end Sys2Proof.Machine

namespace Sys2Proof.Proofs

open Sys2Proof.Machine

/-- Settles O47: the addresses first, which may leave 23 bits, then two pushes that are ready, then the target. -/
theorem calls : Obligations.Calls := by
  refine fun s target off ra => ⟨fun h => ?overflow, exec_rcall_overflow, fun hlo hhi =>
    ⟨fun hpc hra => exec_call_ready hpc hra hlo hhi, fun hpc hra h0 h1 => exec_rcall_ready hpc hra h0 h1 hlo hhi⟩⟩
  case overflow => exact outcome_fault (run_bind_error (pcPlus_overflow (.inr (by omega)) s))

/-- Settles O48: a relative target is `pcPlus` from the next instruction. -/
theorem jumps : Obligations.Jumps := by
  refine fun s target off k a => ⟨rfl, rfl, rfl, fun ha => ?_⟩
  subst ha
  exact ⟨fun h0 h1 => outcome_ok (run_bind_ok (pcPlus_ok h0 h1 s)),
    fun h => outcome_fault (run_bind_error (pcPlus_overflow h s))⟩

/-- Settles O49: RETURN is `returnFromCall`, and RETLW is that after its register write. -/
theorem returns : Obligations.Returns := by
  refine fun s u byte lit d i => ⟨exec_retlw_w15 s byte lit, fun hi hhi hlo => ?_⟩
  have hexec : exec i s = outcome returnFromCall u := by
    rcases hi with ⟨rfl, rfl⟩ | ⟨rfl, hd, rfl⟩
    · rfl
    · exact exec_retlw_eq hd byte lit
  rw [hexec, ← evenPc_returnAddress]
  exact outcome_ok (returnFromCall_ready hhi hlo)

/-- Settles O35: what stops TBLRDL before its address is formed, and then the ways of `tableLoad`. -/
theorem tableRead : Obligations.TableRead := by
  refine fun s byte dst src ea w => ⟨exec_tblrdl_direct, exec_tblrdl_conflict, fun hd hc ha hl hea => ?_⟩
  have hrest := beforeSourceRead_sameRest s 0 (stepOf byte) src
  obtain ⟨-, himpl, hword⟩ := hrest.table ea
  have hpage : (s.beforeSourceRead 0 (stepOf byte) src).tblpag.getLsbD 7 = s.tblpag.getLsbD 7 := by rw [hrest.pages.1]
  rw [exec_tblrdl_addressed hd hc ha hl, hea, ← hrest.dev]
  refine ⟨fun hb h0 => ?misaligned, fun h0 => ⟨fun hpag => ?fault, fun hpag hi hw hdst => ?ready⟩⟩
  case misaligned =>
    subst hb
    exact outcome_misaligned fun e t h => outcome_stops (tableLoad_misaligned h0 h)
  case fault => exact outcome_fault (tableLoad_fault h0 (hpage.trans hpag))
  case ready =>
    rw [← laneOrWord_progWord, ← hw, outcome_ok (tableLoad_ready h0 (hpage.trans hpag) (himpl.trans hi) hdst), hword]
    rfl

/-- Settles O50: after two pops that are ready RETFIE ends in the state `returning`. -/
theorem returnFromException : Obligations.ReturnFromException := by
  intro s hi lo hready hready' hhi hlo
  obtain ⟨hcorcon, hsrh, hregs, hdata, hrest, -⟩ := returning_popped_kept s hi (evenPc (returnAddress hi lo))
  obtain ⟨hipl, -⟩ := popped_twice_cur s
  have hexec := exec_retfie_ready hready hready'
  rw [hhi, hlo] at hexec
  refine ⟨_, hexec, returning_srl _ _ _, hcorcon, hsrh, ?jump, returning_readW _ _ _ _, hregs, hdata, hrest, ?ipl⟩
  case jump => rw [returning_cur, evenPc_returnAddress]
  case ipl => rw [returning_cur, returning_ipl, hipl, popped_sr, popped_sr, Bool.or_eq_true, bne_iff_ne]

/-- Settles O58: the entry leaves the frame that `step_entry` names, RETFIE pops it, and its two words are the status and
the pc; the step ends as `finish_retfie` says. -/
theorem entryThenReturn : Obligations.EntryThenReturn := by
  intro s t h e sp hinv hreset hacc hsp hlo hhi hb hstep hW15 hloadLo hloadHi hwLo hwHi hsplim hbadLo hbadHi
  obtain ⟨hheld, htop, hpcLow, hstatus⟩ := step_entry hinv hreset hacc hsp hlo hhi hb hstep
  obtain ⟨hready, hhiWord, hready', hloWord, hend⟩ :=
    pop_ram_twice (hW15.trans htop) hwLo hwHi hsplim hbadLo hbadHi
  have hexec := exec_retfie_ready hready hready'
  rw [hhiWord, hloWord, hloadHi, hloadLo, hpcLow, hstatus, returnAddress_stacked hinv.pc] at hexec
  obtain ⟨hsrl, hipl3, -⟩ := stackedStatus_fields s s.pc
  obtain ⟨hcorcon, -, hregs, hdata, -, hkept⟩ := returning_popped_kept h (s.stackedStatus s.pc) s.pc
  refine ⟨_, hexec, rfl, (returning_srl _ _ _).trans hsrl, ?ipl3, (returning_readW _ _ _ _).trans hend, hregs, hdata,
    fun hidle hsame hhazard => ?finish⟩
  case ipl3 => rw [hcorcon, hipl3]
  case finish =>
    obtain ⟨-, hloop, hmarkSplim, hmarkDoend⟩ := popped_twice_cur h
    obtain ⟨hloop', hmarkSplim', hmarkDoend'⟩ := returning_marks h.popped.popped (s.stackedStatus s.pc) s.pc
    rw [hidle] at hloop hmarkSplim hmarkDoend
    have hipl := hhazard.elim id fun ⟨hpc, hdl⟩ => iplHazard_ownTarget hpc hdl rfl
    exact finish_retfie (hloop'.trans hloop) hipl rfl (((returning_readW _ _ _ _).trans hend).trans hsp.symm)
      ((hkept.trans hsame).trans hheld) (hmarkSplim'.trans hmarkSplim) (hmarkDoend'.trans hmarkDoend)

/-- Settles O10 by `finish_deviceReset`: the instruction's own target is 0, and nothing of it outlasts the reset. -/
theorem deviceReset : Obligations.DeviceReset := by
  refine fun s => ⟨rfl, fun hr => ?request, deviceReset_jump s, deviceReset_pc s, fun i hr ha hf hc hi => ?step,
    deviceReset_prog s, deviceReset_dev s, ?wf⟩
  case request => rw [step, if_pos hr]
  case step =>
    have hexec : (∀ byte lit d, i ≠ .retlw byte lit d) ∧ exec i s.notePrefetch = .next (Machine.deviceReset s) := by
      refine hi.elim (fun h => ?_) id
      subst h
      exact ⟨nofun, congrArg Host.Outcome.next (deviceReset_notePrefetch s)⟩
    rw [step_eq_stepInstr hr ha, stepInstr_next hf hc hexec.2, finish_deviceReset hexec.1]
  case wf =>
    rw [deviceReset_data]
    exact ramAfterReset_wf s.dev s.free

end Sys2Proof.Proofs
end

section
/-! Family 45_loops. REPEAT and DO, the REPEAT hold, the refusals and hazards at the end of a DO loop, and the test
there (spec/45_loops.md). -/

namespace Sys2Proof.Machine

/-! ### DO -/

section
variable {s : State} {count : BitVec 14} {off : BitVec 16}

/-- DO takes its count from its literal or from the low 14 bits of its register (R460, R461). -/
theorem exec_do {r : RegNum} {i : Instr}
    (hi : i = .doLit count off ∨ i = .doReg r off ∧ count = (s.readW r).extractLsb' 0 14) :
    exec i s = outcome (startLoop count off) s := by
  rcases hi with rfl | ⟨rfl, rfl⟩
  · rfl
  · rfl

/-- The loop lengths to avoid, as DO tests its offset (R480). -/
theorem badOffset_iff (off : BitVec 16) :
    (off == 0 || off == 0xFFFF || off == 0xFFFE) = true ↔ off.toInt = 0 ∨ off.toInt = -1 ∨ off.toInt = -2 := by
  have h0 : (0 : BitVec 16).toInt = 0 := by decide
  have h1 : (0xFFFF : BitVec 16).toInt = -1 := by decide
  have h2 : (0xFFFE : BitVec 16).toInt = -2 := by decide
  simp only [Bool.or_eq_true, beq_iff_eq, or_assoc, ← BitVec.toInt_inj, h0, h1, h2]

theorem startLoop_nesting (h : s.corcon.dl = 7) (count : BitVec 14) (off : BitVec 16) :
    (startLoop count off).run s = .error (.refused .doNesting) s := by
  rw [startLoop, run_bind_ok (run_getS s), h]
  rfl

theorem startLoop_length (hdl : s.corcon.dl ≠ 7) (hoff : off.toInt = 0 ∨ off.toInt = -1 ∨ off.toInt = -2) :
    (startLoop count off).run s = .error (.refused .doLoopLength) s := by
  rw [startLoop, run_bind_ok (run_getS s), beq_false_of_ne hdl, run_bind_ok (run_stopIf_false _ s),
    (badOffset_iff off).2 hoff, run_bind_error (run_stopIf_true _ s)]

/-- A DO that nothing refuses, both of its addresses within 23 bits (R460). -/
theorem startLoop_ready (hdl : s.corcon.dl ≠ 7) (hoff : ¬ (off.toInt = 0 ∨ off.toInt = -1 ∨ off.toInt = -2))
    (hpc : s.pc.toNat + 4 < 2 ^ 23) (h0 : 0 ≤ (s.pc.toNat : Int) + (4 + 2 * off.toInt))
    (h1 : (s.pc.toNat : Int) + (4 + 2 * off.toInt) < 2 ^ 23) :
    (startLoop count off).run s =
      .ok () (s.startDo count (s.pc + 4) (BitVec.ofInt 23 ((s.pc.toNat : Int) + (4 + 2 * off.toInt)))) := by
  have hfirst : (pcPlus s.pc 4).run s = .ok (s.pc + 4) s := pcPlus_natCast (k := 4) hpc s
  rw [startLoop, run_bind_ok (run_getS s), beq_false_of_ne hdl, run_bind_ok (run_stopIf_false _ s),
    Bool.eq_false_iff.2 (mt (badOffset_iff off).1 hoff), run_bind_ok (run_stopIf_false _ s), run_bind_ok hfirst,
    run_bind_ok (pcPlus_ok h0 h1 s), run_modS]

/-- A DO below level 7 leaves a loop active (R465). -/
theorem startDo_da (h : s.corcon.dl ≠ 7) (count : BitVec 14) (first lastAddr : PcAddr) :
    (s.startDo count first lastAddr).da = true :=
  bne_iff_ne.2 (loopLevel_succ_ne_zero h)

end

/-- An address within 23 bits is the integer that it was computed as (R33). -/
theorem toNat_ofInt_pc {k : Int} (h0 : 0 ≤ k) (h1 : k < 2 ^ 23) : ((BitVec.ofInt 23 k).toNat : Int) = k := by
  rw [BitVec.toNat_ofInt]
  omega

/-! ### Where an instruction stands -/

section
variable {s : State} {i : Instr}

theorem badTargetNext_iff :
    s.badTargetNext = true ↔
      s.pc.toNat + 2 < 2 ^ 23 ∧ ∃ j, s.fetchAt (s.pc + 2) = .instr j ∧ j.NotRepeatable := by
  simp only [State.badTargetNext, Bool.and_eq_true, decide_eq_true_eq, holds_iff, excludedRepeatTarget_iff]

theorem isRepeatTarget_iff :
    s.isRepeatTarget = true ↔ s.sr.ra = true ∨ 2 ≤ s.pc.toNat ∧
      ∃ j, s.fetchAt (s.pc - 2) = .instr j ∧ ((∃ n, j = .repeatLit n) ∨ ∃ r, j = .repeatReg r) := by
  simp only [State.isRepeatTarget, Bool.or_eq_true, Bool.and_eq_true, decide_eq_true_eq, holds_iff, isRepeat_iff]

theorem atLoopEnd_iff : s.atLoopEnd = true ↔ s.da = true ∧ s.pc = s.doend := by
  rw [State.atLoopEnd, Bool.and_eq_true, beq_iff_eq]

/-- The distances from the end address to the start of a loop of length 0, -1 and -2 (R480). -/
theorem badLoopLength_iff :
    s.badLoopLength = true ↔ s.dostart = s.doend ∨ s.dostart = s.doend + 2 ∨ s.dostart = s.doend + 4 := by
  have hsub : ∀ k, s.dostart - s.doend = k ↔ s.dostart = s.doend + k := fun k => by
    rw [sub_eq_iff_eq_add, add_comm]
  have hzero : s.doend + 0#23 = s.doend := BitVec.add_zero _
  simp [State.badLoopLength, hsub, hzero]

/-- What REPEAT refuses comes before what a DO loop refuses (R458). -/
theorem contextRefusal_repeatTarget_iff :
    contextRefusal i s = some .repeatTarget ↔
      (s.sr.ra && excludedRepeatTarget i || isRepeat i && s.badTargetNext) = true := by
  unfold contextRefusal
  split
  · rename_i h
    exact iff_of_true rfl h
  · rename_i h
    refine iff_of_false ?_ h
    split
    · nofun
    · split <;> nofun

/-- Where REPEAT refuses nothing, the refusals at the end of a loop are left (R478, R480). -/
theorem contextRefusal_noRepeat (h : contextRefusal i s ≠ some .repeatTarget) :
    contextRefusal i s =
      if s.lastOfLoop i && (excludedLoopEnd i || s.isRepeatTarget) then some .doLastInstruction
      else if s.atLoopEnd && s.badLoopLength then some .doLoopLength
      else none :=
  if_neg (mt contextRefusal_repeatTarget_iff.2 h)

theorem contextRefusal_doLastInstruction_iff (h : contextRefusal i s ≠ some .repeatTarget) :
    contextRefusal i s = some .doLastInstruction ↔
      (s.lastOfLoop i && (excludedLoopEnd i || s.isRepeatTarget)) = true := by
  rw [contextRefusal_noRepeat h]
  split
  · rename_i hl
    exact iff_of_true rfl hl
  · rename_i hl
    refine iff_of_false ?_ hl
    split <;> nofun

theorem contextRefusal_doLoopLength (hr : contextRefusal i s ≠ some .repeatTarget)
    (hl : contextRefusal i s ≠ some .doLastInstruction) (he : s.atLoopEnd = true) (hb : s.badLoopLength = true) :
    contextRefusal i s = some .doLoopLength := by
  rw [contextRefusal_noRepeat hr, if_neg (mt (contextRefusal_doLastInstruction_iff hr).2 hl), he, hb]
  rfl

end

/-! ### Hazards at the end of a loop -/

section
variable {i : Instr} {s t : State}

theorem loopRegsHazard_iff :
    loopRegsHazard i s t = true ↔
      s.da = true ∧ t.cur.loopRegs = true ∧
        ∃ a, (a = s.pc ∨ a = s.pc + BitVec.ofNat 23 (2 * i.words)) ∧
          (a = s.doend ∨ s.corcon.dl ≠ 1 ∧ a = s.doendShadow ∨ a = t.doend) := by
  simp only [loopRegsHazard, Bool.and_eq_true, List.any_eq_true, List.mem_cons, List.not_mem_nil, or_false,
    Bool.or_eq_true, endsLoop_iff, beq_iff_eq]
  constructor
  · rintro ⟨hw, a, ha, ⟨hda, he⟩ | ⟨hda, he⟩⟩
    · exact ⟨hda, hw, a, ha, or_assoc.1 (.inl he)⟩
    · exact ⟨hda, hw, a, ha, .inr (.inr he)⟩
  · rintro ⟨hda, hw, a, ha, he⟩
    exact ⟨hw, a, ha, (or_assoc.2 he).imp (.intro hda) (.intro hda)⟩

/-- At the end address of a loop the hazard of IPL is that of an instruction without an own target (R470). -/
theorem notOwnTarget_iff {a : PcAddr} {jump : Option PcAddr} :
    (!(s.pc == a && jump.isSome)) = true ↔ (s.pc = a → jump = none) := by
  simp [imp_iff_not_or]

theorem iplHazard_iff :
    iplHazard i s t = true ↔
      s.da = true ∧ t.cur.ipl = true ∧
        ∃ first last, (first = s.dostart ∧ last = s.doend ∨
            s.corcon.dl ≠ 1 ∧ first = s.dostartShadow ∧ last = s.doendShadow) ∧
          (s.pc = last → t.cur.jump = none) ∧
          ∃ a b, a = (if s.pc = last then first else s.pc + BitVec.ofNat 23 (2 * i.words)) ∧
            b = (if a = last then first else a + BitVec.ofNat 23 (2 * firstWordLength (s.progWord a))) ∧ b = last := by
  simp only [iplHazard, Bool.and_eq_true, List.any_eq_true, mem_loops, notOwnTarget_iff, beq_iff_eq, nextInLoop]
  constructor
  · rintro ⟨hw, ⟨first, last⟩, ⟨hda, hl⟩, hj, hb⟩
    exact ⟨hda, hw, first, last, by simpa only [Prod.mk.injEq] using hl, hj, _, _, rfl, rfl, hb⟩
  · rintro ⟨hda, hw, first, last, hl, hj, _, _, rfl, rfl, hb⟩
    exact ⟨hw, (first, last), ⟨hda, by simpa only [Prod.mk.injEq] using hl⟩, hj, hb⟩

end

/-! ### The REPEAT hold -/

/-- `t` gone on to the address `a` as a REPEAT decides: beside `moved`, RCOUNT and RA take new values (R455). -/
def State.repeated (t : State) (a : PcAddr) (count : BitVec 14) (ra : Bool) : State :=
  { t.moved a with rcount := count, sr := { t.sr with ra := ra } }

theorem repeated_eq (t : State) (a : PcAddr) (count : BitVec 14) (ra : Bool) :
    ∃ e, t.repeated a count ra = { t with pc := a, edtPending := e, rcount := count, sr := { t.sr with ra := ra } } := by
  obtain ⟨e, h⟩ := moved_eq t a
  exact ⟨e, by rw [State.repeated, h]⟩

section
variable {t : State} {words : Nat}

/-- With RCOUNT at 0 the repetition is over, and the pc goes on in program order (R455). -/
theorem choosePc_of_repeatOver (hj : t.cur.jump = none) (hr : t.rcount = 0) (hpc : t.pc.toNat + 2 * words < 2 ^ 23) :
    t.advanceEdt.choosePc true words =
      .next (t.repeated (BitVec.ofNat 23 (t.pc.toNat + 2 * words)) 0 false) := by
  obtain ⟨e, h⟩ := advanceEdt_eq t
  simp only [State.repeated, State.moved, h, State.choosePc, hj, State.holdRepeat, hr, if_true]
  exact advance_next hpc

/-- Else the same instruction executes again, with RCOUNT one less (R455). -/
theorem choosePc_of_repeatAgain (hj : t.cur.jump = none) (hr : t.rcount ≠ 0) (words : Nat) :
    t.advanceEdt.choosePc true words =
      .next (t.repeated t.pc (t.rcount - 1) (t.sr.ra && t.rcount - 1 != 0)) := by
  obtain ⟨e, h⟩ := advanceEdt_eq t
  simp only [State.repeated, State.moved, h, State.choosePc, hj, State.holdRepeat, hr, if_true, if_false]

end

theorem stepEnds_repeated (i : Instr) (t : State) (a : PcAddr) (count : BitVec 14) (ra : Bool) :
    StepEnds i t ((t.repeated a count ra).closed i t) := by
  obtain ⟨e, h⟩ := repeated_eq t a count ra
  rw [h]
  exact stepEnds_closed (by constructor <;> simp) ⟨rfl, rfl⟩ rfl rfl

/-- A REPEAT leaves the DO loops and the free values alone. -/
theorem loopsKept_repeated (i : Instr) (t : State) (a : PcAddr) (count : BitVec 14) (ra : Bool) :
    LoopsKept t ((t.repeated a count ra).closed i t) ∧ ((t.repeated a count ra).closed i t).free = t.free := by
  have early : EdtCounted t ((t.repeated a count ra).closed i t) := edtCounted_of_advanceEdt rfl
  obtain ⟨e, h⟩ := repeated_eq t a count ra
  rw [h] at early ⊢
  exact ⟨⟨rfl, ⟨rfl, rfl, rfl⟩, early⟩, rfl⟩

/-! ### The end-of-loop test -/

/-- An early termination is due at its second instruction after the request (R474). -/
theorem advanceEdt_due_iff {t : State} :
    t.advanceEdt.edtPending = some 2 ↔
      t.cur.edt = false ∧ (t.edtPending = some 1 ∨ t.edtPending = some 2) ∨
        t.cur.edt = true ∧ t.edtPending = some 2 := by
  unfold State.advanceEdt
  cases t.cur.edt with
  | true => simp
  | false =>
    rcases t.edtPending with _ | k
    · simp
    · have hk : ∀ k : Fin 3, (if k = 0 then (1 : Fin 3) else 2) = 2 ↔ k = 1 ∨ k = 2 := by decide
      simp [hk]

/-- A termination that is not pending, or whose count has not come so far, is not due (R474). -/
theorem advanceEdt_notDue {t : State}
    (h : t.edtPending = none ∨ t.edtPending = some 0 ∨ t.cur.edt = true ∧ t.edtPending = some 1) :
    t.advanceEdt.edtPending ≠ some 2 := by
  refine mt advanceEdt_due_iff.1 ?_
  rcases h with h | h | ⟨he, h⟩
  · simp [h]
  · simp [h]
  · simp [he, h]

/-- All that the end of a loop changes (R470, R465): the outer loop's registers come back at DL = 2, and DCOUNT has a
free value at DL = 1. -/
theorem leaveLoop_eq (t : State) :
    t.leaveLoop = { t with
      dostart := if t.corcon.dl = 2 then t.dostartShadow else t.dostart
      doend := if t.corcon.dl = 2 then t.doendShadow else t.doend
      dcount := if t.corcon.dl = 2 then t.dcountShadow else if t.corcon.dl = 1 then Config.free 16 t.free else t.dcount
      free := if t.corcon.dl = 1 then t.free + 1 else t.free
      corcon := { t.corcon with dl := t.corcon.dl - 1 }
      edtPending := none } := by
  unfold State.leaveLoop
  by_cases h2 : t.corcon.dl = 2
  · have h1 : t.corcon.dl ≠ 1 := by simp [h2]
    simp only [if_pos h2, if_neg h1]
  · by_cases h1 : t.corcon.dl = 1
    · simp only [if_neg h2, if_pos h1]
    · simp only [if_neg h2, if_neg h1]

/-- A loop that ends forgets a pending early termination, so its count does not matter (R474). -/
theorem leaveLoop_advanceEdt (t : State) : t.advanceEdt.leaveLoop = t.leaveLoop := by
  obtain ⟨e, h⟩ := advanceEdt_eq t
  rw [h, leaveLoop_eq, leaveLoop_eq]

section
variable {t : State} {words : Nat}

theorem choosePc_eq_loopTest (hj : t.cur.jump = none) (hl : t.atLoopEnd = true) :
    t.advanceEdt.choosePc false words = t.advanceEdt.loopTest words := by
  simp [State.choosePc, hj, hl]

/-- The loop ends, and the pc goes on in program order (R470). -/
theorem choosePc_of_loopOver (hj : t.cur.jump = none) (hl : t.atLoopEnd = true)
    (hend : t.dcount = 0 ∨ t.advanceEdt.edtPending = some 2) (hpc : t.pc.toNat + 2 * words < 2 ^ 23) :
    t.advanceEdt.choosePc false words =
      .next { t.leaveLoop with pc := BitVec.ofNat 23 (t.pc.toNat + 2 * words) } := by
  have hd : t.advanceEdt.dcount = t.dcount := by
    obtain ⟨e, h⟩ := advanceEdt_eq t
    rw [h]
  have hp : t.leaveLoop.pc = t.pc := by rw [leaveLoop_eq]
  rw [choosePc_eq_loopTest hj hl, State.loopTest, hd, if_pos hend, leaveLoop_advanceEdt, advance_next (by rwa [hp]), hp]

/-- The loop goes on at its start (R470). -/
theorem choosePc_of_loopAgain (hj : t.cur.jump = none) (hl : t.atLoopEnd = true) (hd : t.dcount ≠ 0)
    (hp : t.advanceEdt.edtPending ≠ some 2) (words : Nat) :
    t.advanceEdt.choosePc false words = .next { t.moved t.dostart with dcount := t.dcount - 1 } := by
  rw [choosePc_eq_loopTest hj hl]
  obtain ⟨e, h⟩ := advanceEdt_eq t
  rw [h] at hp
  simp only [State.loopTest, State.moved, h, if_neg (not_or.2 ⟨hd, hp⟩)]

end

theorem stepEnds_loopOver (i : Instr) (t : State) (a : PcAddr) :
    StepEnds i t ({ t.leaveLoop with pc := a }.closed i t) := by
  rw [leaveLoop_eq]
  exact stepEnds_closed (by constructor <;> simp) ⟨rfl, rfl⟩ rfl rfl

theorem stepEnds_loopAgain (i : Instr) (t : State) (a : PcAddr) (count : Word) :
    StepEnds i t ({ t.moved a with dcount := count }.closed i t) := by
  obtain ⟨e, h⟩ := moved_eq t a
  rw [h]
  exact stepEnds_closed (by constructor <;> simp) ⟨rfl, rfl⟩ rfl rfl

end Sys2Proof.Machine

namespace Sys2Proof.Proofs

open Sys2Proof.Machine

/-- Settles O51: REPEAT is the one update `startRepeat`. -/
theorem repeatStarts : Obligations.RepeatStarts := by
  refine fun s count => ⟨rfl, rfl, s.startRepeat count, rfl, rfl, rfl, rfl, ?rest, RegsKept.refl s [], rfl⟩
  case rest => exact { SameRest.refl s with }

/-- Settles O52: what `startLoop` does at each of its tests, and the state `startDo` where none refuses. -/
theorem doStarts : Obligations.DoStarts := by
  intro s count off r i hi
  rw [exec_do hi]
  refine ⟨fun h => outcome_refused (startLoop_nesting h count off),
    fun hdl hoff => outcome_refused (startLoop_length hdl hoff), fun hdl hz hm1 hm2 hpc h0 h1 => ?ready⟩
  case ready =>
    exact ⟨_, outcome_ok (startLoop_ready hdl (by simp [hz, hm1, hm2]) hpc h0 h1), rfl, toNat_ofInt_pc h0 h1, rfl, rfl,
      rfl, rfl, rfl, startDo_da hdl _ _ _, RegsKept.refl s [], rfl, rfl, rfl, rfl, rfl⟩

/-- Settles O54: what REPEAT refuses is the first test of `contextRefusal`; an instruction that is held ends in the state
`repeated`, at the next address once RCOUNT is 0 and at its own before. -/
theorem repeatHolds : Obligations.RepeatHolds := by
  refine ⟨fun s r => ⟨_, rfl, rfl⟩, fun i s => ?refused, fun i s t hz hra hj => ⟨fun hr hpc => ?done, fun hr => ?again⟩⟩
  case refused =>
    rw [contextRefusal_repeatTarget_iff, Bool.or_eq_true, Bool.and_eq_true, Bool.and_eq_true, excludedRepeatTarget_iff,
      isRepeat_iff, badTargetNext_iff]
  case done =>
    have hc := choosePc_of_repeatOver hj hr hpc
    rw [← hra] at hc
    obtain ⟨hloops, hfree⟩ := loopsKept_repeated i t (BitVec.ofNat 23 (t.pc.toNat + 2 * i.words)) 0 false
    exact ⟨_, finish_eq_closed hz hc, Nat.mod_eq_of_lt hpc, rfl, rfl, stepEnds_repeated i t _ _ _, hloops, hfree⟩
  case again =>
    have hc := choosePc_of_repeatAgain hj hr i.words
    rw [← hra] at hc
    obtain ⟨hloops, hfree⟩ := loopsKept_repeated i t t.pc (t.rcount - 1) (t.sr.ra && t.rcount - 1 != 0)
    have hcount : (t.rcount - 1).toNat + 1 = t.rcount.toNat := by bv_omega
    exact ⟨_, finish_eq_closed hz hc, rfl, hcount, rfl, stepEnds_repeated i t _ _ _, hloops, hfree⟩

/-- Settles O55: the refusals are the tests of `contextRefusal` behind the one of REPEAT, the hazards read as existences,
and the test ends in `leaveLoop` or goes back to the start of the loop, by whether the early termination is due once it
has been counted. -/
theorem doLoopTest : Obligations.DoLoopTest := by
  refine ⟨fun i s hda hr => ⟨?last, fun hl hpc hlen => ?length⟩,
    fun i s t => ⟨loopRegsHazard_iff, iplHazard_iff, fun h => finish_hazard (Bool.or_eq_true_iff.2 h)⟩,
    fun i s t hz hra hj hl => ⟨fun hend hpc => ?done, fun hd hnot => ?again⟩⟩
  case last =>
    rw [contextRefusal_doLastInstruction_iff hr, Bool.and_eq_true, Bool.or_eq_true, lastOfLoop_iff, excludedLoopEnd_iff,
      isRepeatTarget_iff, and_iff_right hda]
  case length =>
    exact contextRefusal_doLoopLength hr hl (atLoopEnd_iff.2 ⟨hda, hpc⟩) (badLoopLength_iff.2 hlen)
  case done =>
    have hc := choosePc_of_loopOver hj hl (hend.imp_right advanceEdt_due_iff.2) hpc
    rw [← hra] at hc
    refine ⟨_, finish_eq_closed hz hc, Nat.mod_eq_of_lt hpc, ?_⟩
    have hends := stepEnds_loopOver i t (BitVec.ofNat 23 (t.pc.toNat + 2 * i.words))
    rw [leaveLoop_eq] at hends ⊢
    exact ⟨rfl, rfl, fun h2 => ⟨if_pos h2, if_pos h2, if_pos h2⟩, fun h2 => ⟨if_neg h2, if_neg h2⟩,
      fun h2 h1 => (if_neg h2).trans (if_neg h1), hends, rfl, rfl⟩
  case again =>
    have hc := choosePc_of_loopAgain hj hl hd (advanceEdt_notDue hnot) i.words
    rw [← hra] at hc
    refine ⟨_, finish_eq_closed hz hc, rfl, rfl, ?_⟩
    have hends := stepEnds_loopAgain i t t.dostart (t.dcount - 1)
    have early : EdtCounted t ({ t.moved t.dostart with dcount := t.dcount - 1 }.closed i t) :=
      edtCounted_of_advanceEdt rfl
    obtain ⟨e, h⟩ := moved_eq t t.dostart
    rw [h] at hends early ⊢
    exact ⟨rfl, rfl, rfl, hends, early, rfl, rfl, rfl⟩

end Sys2Proof.Proofs
end

section
/-! Family 60_exceptions. Which exception is accepted, what its entry saves and changes, the illegal address trap, and
the stack checks of pushes, pops and operands (spec/60_exceptions.md). -/

namespace Sys2Proof.Machine

/-! ### Pending traps -/

section
variable {t u : Trap}

theorem has_put_same (p : TrapSet) (t : Trap) (c : Bool) : (p.put t c).has t = c := by
  cases t with
  | other n => exact Vector.getElem_set_self _
  | _ => rfl

/-- The four named traps have bits of their own, and the others an array. -/
theorem has_put_other (p : TrapSet) (h : u ≠ t) (c : Bool) : (p.put t c).has u = p.has u := by
  cases t with
  | other n =>
    cases u with
    | other m => exact Vector.getElem_set_ne n.isLt m.isLt fun e => h (congrArg Trap.other (Fin.ext e.symm))
    | _ => rfl
  | _ => cases u <;> simp_all [TrapSet.put, TrapSet.has]

end

/-! ### The request of highest level -/

/-- `b` is one of the requests, and none of them has a higher level (R510). -/
structure Highest (b : Exc × Nat) (l : List (Exc × Nat)) : Prop where
  mem : b ∈ l
  le : ∀ r ∈ l, r.2 ≤ b.2

theorem highest_higher {b r : Exc × Nat} {l : List (Exc × Nat)} (h : Highest b l) :
    ∃ c, higher (some b) r = some c ∧ Highest c (l ++ [r]) := by
  have hmem : ∀ c ∈ l ++ [r], c ∈ l ∨ c = r := fun c hc => by simpa using hc
  by_cases hlt : b.2 < r.2
  · refine ⟨r, if_pos hlt, by simp, fun c hc => ?_⟩
    rcases hmem c hc with hl | rfl
    · exact (h.le c hl).trans hlt.le
    · exact le_rfl
  · refine ⟨b, if_neg hlt, List.mem_append_left _ h.mem, fun c hc => ?_⟩
    rcases hmem c hc with hl | rfl
    · exact h.le c hl
    · exact Nat.not_lt.1 hlt

theorem foldl_higher (rest : List (Exc × Nat)) {b : Exc × Nat} {l : List (Exc × Nat)} (h : Highest b l) :
    ∃ c, rest.foldl higher (some b) = some c ∧ Highest c (l ++ rest) := by
  induction rest generalizing b l with
  | nil => exact ⟨b, rfl, by rwa [List.append_nil]⟩
  | cons r rest ih =>
    obtain ⟨c, hc, hhigh⟩ := highest_higher (r := r) h
    rw [List.foldl_cons, hc, List.append_cons]
    exact ih hhigh

/-- There is a candidate as soon as there is a request, and it is one of highest level (R510). -/
theorem candidate_cases (s : State) :
    s.requests = [] ∧ s.candidate = none ∨ ∃ b, s.candidate = some b ∧ Highest b s.requests := by
  unfold State.candidate
  cases s.requests with
  | nil => exact .inl ⟨rfl, rfl⟩
  | cons r rest =>
    exact .inr (foldl_higher rest (b := r) (l := [r]) ⟨List.mem_singleton_self r, by simp⟩)

/-! ### The pending requests -/

theorem mem_allTraps (t : Trap) : t ∈ allTraps := by
  cases t with
  | other n => revert n; decide
  | _ => decide

section
variable {s : State}

/-- The requests are those of the pending traps and the one of `irq`, of the sources that the device has (R8, R510). -/
theorem mem_requests {r : Exc × Nat} :
    r ∈ s.requests ↔
      (∃ t, s.pendingTraps.has t = true ∧ trapExists s.dev t = true ∧
        r = (.trap t, 8 + (trapLevel s.dev t).toNat)) ∨
      ∃ q, s.irq = some q ∧ q.source.val < s.dev.interruptSources ∧ r = (.irq q.source, q.priority.toNat) := by
  rw [State.requests, List.mem_append]
  refine or_congr ?traps ?irq
  case traps =>
    simp only [List.mem_map, List.mem_filter, List.mem_append, mem_allTraps, or_true, true_and, Bool.and_eq_true,
      and_assoc, @eq_comm _ r]
  case irq =>
    cases s.irq with
    | none => simp
    | some q => by_cases hq : q.source.val < s.dev.interruptSources <;> simp [hq]

/-- DISICNT holds off no trap and no interrupt of priority 7 (R530). -/
theorem heldOff_eq_false_iff {r : Exc × Nat} :
    s.heldOff r = false ↔ ∀ n, r.1 = .irq n → 7 ≤ r.2 ∨ s.disicnt = 0 := by
  rcases r with ⟨t | n, k⟩
  · exact iff_of_true rfl nofun
  · have hcond : s.heldOff (.irq n, k) = (decide (k ≤ 6) && s.disicnt != 0) := rfl
    simp only [hcond, Bool.and_eq_false_iff, decide_eq_false_iff_not, bne_eq_false_iff_eq, Exc.irq.injEq, forall_eq',
      Nat.not_le, Nat.succ_le_iff]

/-! ### Acceptance -/

/-- The accepted request has the highest level, which is above the CPU's, and is not held off (R510, R530). -/
theorem highest_of_accepted {e : Exc} (h : s.accepted = some e) :
    ∃ k, Highest (e, k) s.requests ∧ s.cpuLevel < k ∧ s.heldOff (e, k) = false := by
  rw [State.accepted] at h
  rcases candidate_cases s with ⟨-, hc⟩ | ⟨⟨f, k⟩, hc, hhigh⟩
  · rw [hc] at h
    cases h
  · rw [hc] at h
    obtain ⟨⟨hlevel, hoff⟩, he⟩ := Option.ite_none_right_eq_some.1 h
    cases he
    exact ⟨k, hhigh, hlevel, hoff⟩

/-- A request above the CPU's level has one accepted, unless the one of highest level is held off (R510, R530). -/
theorem accepted_ne_none {r : Exc × Nat} (hr : r ∈ s.requests) (hlevel : s.cpuLevel < r.2)
    (hoff : ∀ b, Highest b s.requests → s.heldOff b = false) : s.accepted ≠ none := by
  rw [State.accepted]
  rcases candidate_cases s with ⟨hnil, -⟩ | ⟨b, hc, hhigh⟩
  · rw [hnil] at hr
    cases hr
  · rw [hc]
    dsimp only
    rw [if_pos ⟨hlevel.trans_le (hhigh.le r hr), hoff b hhigh⟩]
    exact Option.some_ne_none _

theorem trap_of_accepted {t : Trap} (h : s.accepted = some (.trap t)) :
    s.pendingTraps.has t = true ∧ trapExists s.dev t = true ∧ s.cpuLevel < 8 + (trapLevel s.dev t).toNat ∧
      ∀ u, s.pendingTraps.has u = true → trapExists s.dev u = true →
        (trapLevel s.dev u).toNat ≤ (trapLevel s.dev t).toNat := by
  obtain ⟨k, hhigh, hlevel, -⟩ := highest_of_accepted h
  obtain ⟨t', hpend, hdev, he⟩ | ⟨q, -, -, he⟩ := mem_requests.1 hhigh.mem <;> cases he
  refine ⟨hpend, hdev, hlevel, fun u hu hud => ?_⟩
  have hle := hhigh.le _ (mem_requests.2 (.inl ⟨u, hu, hud, rfl⟩))
  exact Nat.add_le_add_iff_left.1 hle

theorem irq_of_accepted {n : Fin 118} (h : s.accepted = some (.irq n)) :
    ∃ q, s.irq = some q ∧ q.source = n ∧ n.val < s.dev.interruptSources ∧ s.cpuLevel < q.priority.toNat ∧
      (q.priority = 7 ∨ s.disicnt = 0) ∧ ∀ t, s.pendingTraps.has t = true → trapExists s.dev t = false := by
  obtain ⟨k, hhigh, hlevel, hoff⟩ := highest_of_accepted h
  obtain ⟨t, -, -, he⟩ | ⟨q, hq, hdev, he⟩ := mem_requests.1 hhigh.mem <;> cases he
  refine ⟨q, hq, rfl, hdev, hlevel, (heldOff_eq_false_iff.1 hoff _ rfl).imp_left fun h7 => ?_, fun t ht => ?_⟩
  · bv_omega
  · by_contra hdev'
    have hle := hhigh.le _ (mem_requests.2 (.inl ⟨t, ht, Bool.not_eq_false _ ▸ hdev', rfl⟩))
    have := q.priority.isLt
    dsimp only at hle
    omega

/-- The request of highest level is a trap if there is a trap, and traps are not held off (R510, R530). -/
theorem accepted_of_trap {t : Trap} (ht : s.pendingTraps.has t = true) (hd : trapExists s.dev t = true)
    (hlevel : s.cpuLevel < 8 + (trapLevel s.dev t).toNat) : s.accepted ≠ none := by
  have hmem := mem_requests.2 (.inl ⟨t, ht, hd, rfl⟩)
  refine accepted_ne_none hmem hlevel fun b hb => heldOff_eq_false_iff.2 fun _ _ => .inl ?_
  have hle := hb.le _ hmem
  dsimp only at hle
  omega

/-- The one interrupt that can be of highest level is that of `irq` (R510). -/
theorem accepted_of_irq {q : IrqRequest} (hq : s.irq = some q) (hd : q.source.val < s.dev.interruptSources)
    (hlevel : s.cpuLevel < q.priority.toNat) (hoff : q.priority = 7 ∨ s.disicnt = 0) : s.accepted ≠ none := by
  have hmem := mem_requests.2 (.inr ⟨q, hq, hd, rfl⟩)
  refine accepted_ne_none hmem hlevel fun b hb => heldOff_eq_false_iff.2 fun _ _ => hoff.imp_left fun h7 => ?_
  have hle := hb.le _ hmem
  rwa [h7] at hle

end

/-! ### The frame of an exception -/

/-- The state with other pending traps. -/
def State.withTraps (s : State) (p : TrapSet) : State := { s with pendingTraps := p }

/-- A push neither looks at the pending traps nor changes them. -/
theorem pushed_withTraps (s : State) (p : TrapSet) (v : Word) :
    (s.withTraps p).pushed v = (s.pushed v).withTraps p := rfl

/-- A push of the entry is a push: a stack check that fails makes StackError pending and stops nothing (R512, D26). -/
theorem entryPushed_eq (s : State) (v : Word) :
    s.entryPushed v =
      (s.pushed v).withTraps
        (s.pendingTraps.put .stack (s.pendingTraps.has .stack || s.stackBad (s.readW 15) false)) := by
  rw [State.entryPushed, State.stackNoted, ← pushed_withTraps]
  cases s.stackBad (s.readW 15) false with
  | true => rw [Bool.or_true]; rfl
  | false => rw [Bool.or_false]; rfl

/-- The traps that are pending once the frame of an exception is stacked at `sp` (R512, D26). -/
def State.framedTraps (s : State) (sp : Word) : TrapSet :=
  s.pendingTraps.put .stack (s.pendingTraps.has .stack || s.stackBad sp false || s.stackBad (sp + 2) false)

/-- The frame of an exception is two pushes, with what their stack checks note (R512, D26). -/
theorem framePushed_eq {s : State} {sp : Word} (hsp : s.readW 15 = sp) (he : evenBits sp = true) :
    s.framePushed = ((s.pushed (pcLow s.pc)).pushed (s.stackedStatus s.pc)).withTraps (s.framedTraps sp) := by
  have hmid : (s.entryPushed (pcLow s.pc)).readW 15 = sp + 2 := by
    rw [entryPushed_readW_15, hsp, evenWord_of_even (evenBits_add_two he)]
  rw [State.framePushed, entryPushed_eq (s.entryPushed _), hmid, entryPushed_eq s, hsp, pushed_withTraps]
  rfl

section
variable {s : State} {lo hi sp : Word}

/-- Two pushed words, where the upper one may end at the top of data space and W15 with it at 0 (R130, R132). -/
theorem pushed_twice_words (hwf : s.data.wf = true) (hsp : s.readW 15 = sp) (he : evenBits sp = true)
    (hb : sp.toNat + 2 < 2 ^ 16) :
    ((s.pushed lo).pushed hi).readW 15 = sp + 4 ∧ ((s.pushed lo).pushed hi).load false sp = lo ∧
      ((s.pushed lo).pushed hi).load false (sp + 2) = hi ∧
      RamKeptOutside s ((s.pushed lo).pushed hi) sp.toNat 4 := by
  subst hsp
  have he2 := evenBits_add_two he
  have hmid : (s.pushed lo).readW 15 = s.readW 15 + 2 := by rw [pushed_readW_15, evenWord_of_even he2]
  have hup : (s.readW 15 + 2).toNat = (s.readW 15).toNat + 2 := by bv_omega
  have hkept := pushed_ramKept (s.pushed lo) hi
  rw [hmid, hup] at hkept
  refine ⟨?pointer, ?low, ?high, fun k hk => ?rest⟩
  case pointer =>
    rw [pushed_readW_15, hmid, evenWord_of_even (evenBits_add_two he2)]
    bv_omega
  case low =>
    refine Eq.trans ?_ (pushed_load hwf lo)
    show State.ramWord _ _ = State.ramWord _ _
    rw [State.ramWord, State.ramWord, hkept _ (by omega), hkept _ (by omega)]
  case high =>
    rw [← hmid]
    have hwf' : (s.pushed lo).data.wf = true := store_wf hwf false (s.readW 15) lo
    exact pushed_load hwf' hi
  case rest => rw [hkept k (by omega), pushed_ramKept s lo k (by omega)]

theorem pushed_twice_sameRest : SameRest s ((s.pushed lo).pushed hi) :=
  (pushed_sameRest s lo).trans (pushed_sameRest _ hi)

theorem pushed_twice_regsKept : RegsKept s ((s.pushed lo).pushed hi) [15] :=
  ((pushed_regsKept s lo).trans (pushed_regsKept _ hi)).mono (by simp)

end

section
variable {s : State} {sp : Word}

theorem framedTraps_stack :
    (s.framedTraps sp).has .stack = (s.pendingTraps.has .stack || s.stackBad sp false || s.stackBad (sp + 2) false) :=
  has_put_same _ _ _

theorem framedTraps_other {x : Trap} (hx : x ≠ .stack) : (s.framedTraps sp).has x = s.pendingTraps.has x :=
  has_put_other _ hx _

end

/-! ### The step of an accepted exception -/

section
variable (u s : State) (e : Exc)

/-- The entry leaves the registers, data RAM and the free values as the stacking of the frame left them (R512). -/
theorem enteredOn_regsKept : RegsKept u (u.enteredOn s e) [] := fun r _ => by cases e <;> exact ⟨rfl, rfl⟩

theorem enteredOn_data : (u.enteredOn s e).data = u.data := by cases e <;> rfl

theorem enteredOn_free : (u.enteredOn s e).free = u.free := by cases e <;> rfl

end

section
variable {s u : State}

/-- Of the stacked state the entry leaves all that it does not set (R512). -/
theorem enteredOn_sameRest (h : SameRest s u) (p : TrapSet) (e : Exc) :
    SameRest s { (u.withTraps p).enteredOn s e with
      pc := s.pc, corcon := s.corcon, pendingTraps := s.pendingTraps, irq := s.irq } := by
  cases e <;> exact { h with
    pc := rfl, corcon := rfl, traps := ⟨rfl, h.traps.2⟩, inputs := ⟨rfl, h.inputs.2⟩ }

/-- The pc goes to the vector (R520), no instruction is under way, and the marks of the one before stay (log 35). -/
theorem enteredOn_control (h : SameRest s u) (p : TrapSet) (e : Exc) :
    ((u.withTraps p).enteredOn s e).pc = vectorOf s.dev e ∧
      ((u.withTraps p).enteredOn s e).cur = Scratch.empty ∧
      ((u.withTraps p).enteredOn s e).last = { s.last with wrote := 0 } := by
  rw [← h.dev]
  cases e <;> exact ⟨rfl, rfl, rfl⟩

/-- The entry clears RA and sets IPL, and of SR nothing else (R513, R514, R531). -/
theorem enteredOn_sr (h : SameRest s u) (hsr : u.sr = s.sr) (p : TrapSet) (e : Exc) :
    ((u.withTraps p).enteredOn s e).sr =
        { s.sr with ra := false, ipl := ((u.withTraps p).enteredOn s e).sr.ipl } ∧
      ((u.withTraps p).enteredOn s e).srh = s.srh := by
  rw [← hsr, State.srh, State.srh, State.da, State.da, ← h.corcon, ← hsr]
  cases e <;> exact ⟨rfl, rfl⟩

/-- The level of a trap, which is no longer pending (R512, R513). -/
theorem enteredOn_trap (h : SameRest s u) (p : TrapSet) (x : Trap) :
    ((u.withTraps p).enteredOn s (.trap x)).corcon = { s.corcon with ipl3 := true } ∧
      ((u.withTraps p).enteredOn s (.trap x)).sr.ipl = trapLevel s.dev x ∧
      ((u.withTraps p).enteredOn s (.trap x)).irq = s.irq ∧
      ((u.withTraps p).enteredOn s (.trap x)).pendingTraps = p.put x false := by
  rw [← h.corcon, ← h.dev, ← h.inputs.1]
  exact ⟨rfl, rfl, rfl, rfl⟩

/-- The level of an interrupt, whose request is consumed (R512, R513, R531). -/
theorem enteredOn_irq (h : SameRest s u) (p : TrapSet) (n : Fin 118) :
    ((u.withTraps p).enteredOn s (.irq n)).corcon = { s.corcon with ipl3 := false } ∧
      ((u.withTraps p).enteredOn s (.irq n)).irq = none ∧
      (s.intcon1.nstdis = true → ((u.withTraps p).enteredOn s (.irq n)).sr.ipl = 7) ∧
      (∀ q, s.irq = some q → s.intcon1.nstdis = false →
        ((u.withTraps p).enteredOn s (.irq n)).sr.ipl = q.priority) ∧
      ((u.withTraps p).enteredOn s (.irq n)).pendingTraps = p := by
  rw [← h.corcon, ← h.traps.2, ← h.inputs.1]
  refine ⟨rfl, rfl, fun hn => if_pos hn, fun q hq hn => ?priority, rfl⟩
  have hipl : ((u.withTraps p).enteredOn s (.irq n)).sr.ipl =
      if u.intcon1.nstdis then 7 else (u.irq.map IrqRequest.priority).getD u.sr.ipl := by
    simp only [State.enteredOn, State.enterLevel, State.withTraps]
    cases u.irq <;> rfl
  rw [hipl, hn, hq]
  rfl

end

/-- An accepted exception is entered in a step of its own (R14, R512). -/
theorem step_accepted {s : State} {e : Exc} {sp : Word} (hreset : s.resetReq = false) (hacc : s.accepted = some e)
    (hsp : s.readW 15 = sp) (hlo : s.writable false sp = true) (hhi : s.writable false (sp + 2) = true) :
    step s = .next (s.framePushed.enteredOn s e) := by
  subst hsp
  have he := evenBits_add_two (even_of_writable hlo)
  rw [step, if_neg (by rw [hreset]; exact Bool.false_ne_true), hacc]
  exact outcome_ok (enterException_ready hlo (by rwa [evenWord_of_even he]) e)

/-! ### The stack check -/

section
variable {s : State} {ea : Word} {w : Bool}

/-- Beyond SPLIM once armed, or below 0x0800, the check fails whatever the carry (R506, R507). -/
theorem stackBad_of_outside (h : s.splimArmed = true ∧ s.splim.toNat < ea.toNat ∨ ea.toNat < ramStart) (w : Bool) :
    s.stackBad ea w = true := by
  rcases h with ⟨harmed, hbeyond⟩ | hbelow
  · simp [State.stackBad, harmed, hbeyond]
  · simp [State.stackBad, hbelow]

/-- A carry out of bit 15 fails the armed check (R508). -/
theorem stackBad_of_wraps (harmed : s.splimArmed = true) (ea : Word) : s.stackBad ea true = true := by
  simp [State.stackBad, harmed]

/-- The device that performs the faulting access goes on with StackError pending (R202, D10). -/
theorem checkStack_noted (h : s.stackBad ea w = true) (hd : s.dev.faultingAccessPerformed = true) :
    (checkStack ea w).run s = .ok () (s.pend .stack) := by
  show (if s.stackBad ea w then (if s.dev.faultingAccessPerformed then _ else _) else _) = _
  rw [h, hd]
  rfl

/-! ### Pushes -/

theorem push_stackError (h : s.stackBad (s.readW 15) false = true) (hd : s.dev.faultingAccessPerformed = false)
    (v : Word) : (push v).run s = .error .ended (s.pend .stack) := by
  rw [push, run_bind_ok (run_readW 15 s), run_bind_error (checkStack_fails h hd)]

theorem push_performed (h : s.stackBad (s.readW 15) false = true) (hd : s.dev.faultingAccessPerformed = true)
    (hw : s.writable false (s.readW 15) = true) (v : Word) :
    (push v).run s = .ok () ((s.pend .stack).pushed v) := by
  have hw' : (s.pend .stack).writable false (s.readW 15) = true := hw
  rw [push, run_bind_ok (run_readW 15 s), run_bind_ok (checkStack_noted h hd), run_bind_ok (memWrite_ready hw' v),
    run_bind_ok (run_readW 15 _)]
  rfl

/-- PUSH, LNK, CALL and RCALL end at the check of their first push (R220, R224, R401, R402). -/
theorem exec_push_stackError {target : PcAddr} {off : BitVec 16} (r : RegNum) (k : BitVec 14)
    (h : s.stackBad (s.readW 15) false = true) (hd : s.dev.faultingAccessPerformed = false) :
    exec (.push r) s = .next (s.pend .stack) ∧ exec (.lnk k) s = .next (s.pend .stack) ∧
      (s.pc.toNat + 4 < 2 ^ 23 → exec (.call target) s = .next (s.pend .stack)) ∧
      (s.pc.toNat + 2 < 2 ^ 23 → 0 ≤ (s.pc.toNat : Int) + (2 + 2 * off.toInt) →
        (s.pc.toNat : Int) + (2 + 2 * off.toInt) < 2 ^ 23 → exec (.rcall off) s = .next (s.pend .stack)) := by
  have hcall (ra a : PcAddr) : (pushPcCall ra >>= fun _ => jumpTo a).run s = .error .ended (s.pend .stack) :=
    run_bind_error (run_bind_error (push_stackError h hd _))
  refine ⟨outcome_ended ?push, outcome_ended ?lnk, fun hpc => outcome_ended ?call,
    fun hpc h0 h1 => outcome_ended ?rcall⟩
  case push => exact (run_bind_ok (run_readW r s)).trans (push_stackError h hd _)
  case lnk => exact (run_bind_ok (run_readW 14 s)).trans (run_bind_error (push_stackError h hd _))
  case call => exact (run_bind_ok (pcPlus_natCast (k := 4) hpc s)).trans (hcall _ target)
  case rcall =>
    exact (run_bind_ok (pcPlus_natCast (k := 2) hpc s)).trans ((run_bind_ok (pcPlus_ok h0 h1 s)).trans (hcall _ _))

/-! ### Pops -/

/-- Right after a write of SPLIM nothing is read through W15 (R570). -/
theorem sourceThrough_afterSplim (h : s.last.splim = true) :
    (sourceThrough 15).run s = .error (.refused .splimThenW15Read) s := by
  simp only [sourceThrough, run_bind, run_getS, h, beq_self_eq_true, Bool.and_self, run_stopIf_true]

theorem pop_afterSplim (h : s.last.splim = true) : pop.run s = .error (.refused .splimThenW15Read) s := by
  rw [pop, run_bind_ok (run_readW 15 s), run_bind_error (sourceThrough_afterSplim h)]

/-- Else a pop moves W15 down and checks what it then holds (R131). -/
theorem pop_eq (h : s.last.splim = false) :
    pop.run s = (checkStack (s.beforePopRead.readW 15) false >>= fun _ =>
      memRead false (s.beforePopRead.readW 15)).run s.beforePopRead := by
  rw [pop, run_bind_ok (run_readW 15 s), run_bind_ok (sourceThrough_ok (by rw [h, Bool.and_false])),
    run_bind_ok (run_writeWord _ _ _), run_bind_ok (run_readW 15 _)]
  rfl

theorem pop_stackError (hl : s.last.splim = false)
    (h : s.beforePopRead.stackBad (s.beforePopRead.readW 15) false = true)
    (hd : s.dev.faultingAccessPerformed = false) :
    pop.run s = .error .ended (s.beforePopRead.pend .stack) := by
  rw [pop_eq hl, run_bind_error (checkStack_fails h hd)]

theorem pop_performed (hl : s.last.splim = false)
    (h : s.beforePopRead.stackBad (s.beforePopRead.readW 15) false = true)
    (hd : s.dev.faultingAccessPerformed = true)
    (hr : s.beforePopRead.readable false (s.beforePopRead.readW 15) = true) :
    pop.run s = .ok s.popValue ((s.beforePopRead.pend .stack).afterRead (s.beforePopRead.readW 15)) := by
  have hr' : (s.beforePopRead.pend .stack).readable false (s.beforePopRead.readW 15) = true := hr
  rw [pop_eq hl, run_bind_ok (checkStack_noted h hd), memRead_ready hr']
  rfl

end

/-- In `s` the instruction comes to a pop in the state `u`, before which it has written registers at most. -/
structure PopsFirst (s : State) (i : Instr) (u : State) : Prop where
  run : ∃ f : Word → M Unit, exec i s = outcome (pop >>= f) u
  rest : SameRest s u
  last : u.last = s.last

namespace PopsFirst

theorem pop (s : State) {d : RegNum} (hd : d ≠ 15) : PopsFirst s (.pop d) s where
  run := ⟨writeWord d, outcome_eq_of_run (run_bind_ok (refuseConflict_ok (beq_eq_false_iff_ne.2 hd) s))⟩
  rest := SameRest.refl s
  last := rfl

theorem ret (s : State) : PopsFirst s .ret s := ⟨⟨_, rfl⟩, SameRest.refl s, rfl⟩

theorem retfie (s : State) : PopsFirst s .retfie s := ⟨⟨_, rfl⟩, SameRest.refl s, rfl⟩

theorem retlw (s : State) (byte : Bool) (lit : BitVec 10) {d : RegNum} (hd : d ≠ 15) :
    PopsFirst s (.retlw byte lit d) (s.putReg byte d (lit.setWidth 16)) where
  run := ⟨_, exec_retlw_eq hd byte lit⟩
  rest := putReg_sameRest s byte d _
  last := by cases byte <;> rfl

theorem ulnk (s : State) : PopsFirst s .ulnk (s.putWord 15 (s.readW 14)) :=
  ⟨⟨_, rfl⟩, putWord_sameRest s 15 _, rfl⟩

variable {s u : State} {i : Instr}

theorem stops (h : PopsFirst s i u) {e : Stop} {t : State} (hp : Machine.pop.run u = .error e t) :
    exec i s = outcome (stopWith e) t := by
  obtain ⟨f, hf⟩ := h.run
  rw [hf, outcome_stops (run_bind_error hp)]

theorem afterSplim (h : PopsFirst s i u) (hl : s.last.splim = true) : exec i s = .refused .splimThenW15Read :=
  h.stops (pop_afterSplim (h.last ▸ hl))

theorem stackError (h : PopsFirst s i u) (hl : s.last.splim = false)
    (hbad : u.beforePopRead.stackBad (u.beforePopRead.readW 15) false = true)
    (hd : s.dev.faultingAccessPerformed = false) : exec i s = .next (u.beforePopRead.pend .stack) :=
  h.stops (pop_stackError (h.last ▸ hl) hbad (h.rest.dev ▸ hd))

/-- The check of the pop, in the terms of the state before the instruction (R506, R507). -/
theorem stackBad (h : PopsFirst s i u)
    (hout : s.splimArmed = true ∧ s.splim.toNat < (evenWord (u.readW 15 - 2)).toNat ∨
      (evenWord (u.readW 15 - 2)).toNat < ramStart) :
    u.beforePopRead.stackBad (u.beforePopRead.readW 15) false = true := by
  have hread : u.beforePopRead.readW 15 = evenWord (u.readW 15 - 2) := readW_putWord _ 15 15 _
  rw [hread, (h.rest.trans (beforePopRead_sameRest u)).stackBad]
  exact stackBad_of_outside hout false

end PopsFirst

/-- POP goes on with its word where the device performs the faulting access (R202, D10). -/
theorem exec_pop_performed {s : State} {d : RegNum} (hd : d ≠ 15) (hl : s.last.splim = false)
    (hbad : s.beforePopRead.stackBad (s.beforePopRead.readW 15) false = true)
    (hdev : s.dev.faultingAccessPerformed = true)
    (hr : s.beforePopRead.readable false (s.beforePopRead.readW 15) = true) :
    exec (.pop d) s =
      .next (((s.beforePopRead.pend .stack).afterRead (s.beforePopRead.readW 15)).putWord d s.popValue) :=
  outcome_ok <| (run_bind_ok (refuseConflict_ok (beq_eq_false_iff_ne.2 hd) s)).trans
    (run_bind_ok (pop_performed hl hbad hdev hr))

/-! ### Operands -/

/-- Where the check of an operand's address stops, the forms that modify first have moved their pointer (R131, R200). -/
def State.atCheck (s : State) (step : Word) (o : Operand) : State := if o.mode.isPre then s.modified step o else s

/-- How an instruction ends whose operand fails the stack check (R503, R511). -/
structure EndsInStackError (s : State) (o : Operand) (t : State) : Prop where
  traps : t.pendingTraps = s.pendingTraps.put .stack true
  registers : RegsKept s t (operandChanged o)
  data : t.data = s.data
  sr : t.sr = s.sr

section
variable {s : State} {b : RegNum} {byte : Bool} {step : Word} {o : Operand}

theorem endsInStackError_atCheck (s : State) (step : Word) (o : Operand) :
    EndsInStackError s o ((s.atCheck step o).pend .stack) := by
  unfold State.atCheck
  split
  · exact ⟨congrArg (TrapSet.put · .stack true) (modified_sameRest s step o).traps.1, movePointer_regsKept s step o,
      movePointer_data s _ _, movePointer_sr s _ _⟩
  · exact ⟨rfl, RegsKept.refl s _, rfl, rfl⟩

/-- The marks of a source read are no part of what must stay (R590). -/
theorem EndsInStackError.of_sourceMarked {t : State} (h : EndsInStackError (s.sourceMarked b o) o t) :
    EndsInStackError s o t where
  traps := h.traps.trans (congrArg (TrapSet.put · .stack true) (sourceMarked_sameRest s b o).traps.1)
  registers := (sourceMarked_regsKept s b o).trans h.registers
  data := h.data.trans (by unfold State.sourceMarked; split <;> rfl)
  sr := h.sr.trans (by unfold State.sourceMarked; split <;> rfl)

/-- The check of an operand's address fails: beyond SPLIM, below 0x0800, or wrapping (R506 to R508). -/
def State.operandBad (s : State) (b : RegNum) (step : Word) (o : Operand) : Bool :=
  s.stackBad (s.effective b step o) (o.mode.wraps (s.readW o.reg) (s.readW b) step)

theorem operandBad_of_outside
    (h : s.splimArmed = true ∧ s.splim.toNat < (s.effective b step o).toNat ∨
      (s.effective b step o).toNat < ramStart ∨
      s.splimArmed = true ∧ o.mode = .preInc ∧ 2 ^ 16 ≤ (s.readW o.reg).toNat + step.toNat ∨
      s.splimArmed = true ∧ o.mode = .offset ∧ 2 ^ 16 ≤ (s.readW o.reg).toNat + (s.readW b).toNat) :
    s.operandBad b step o = true := by
  unfold State.operandBad
  rcases h with hbeyond | hbelow | ⟨harmed, hmode, hwraps⟩ | ⟨harmed, hmode, hwraps⟩
  · exact stackBad_of_outside (.inl hbeyond) _
  · exact stackBad_of_outside (.inr hbelow) _
  · rw [hmode, Mode.wraps, decide_eq_true hwraps]
    exact stackBad_of_wraps harmed _
  · rw [hmode, Mode.wraps, decide_eq_true hwraps]
    exact stackBad_of_wraps harmed _

theorem operandAddress_stackError (hi : s.initialised o.reg = true) (hs : o.usesStack b = true)
    (hbad : s.operandBad b step o = true) (hd : s.dev.faultingAccessPerformed = false) :
    (operandAddress b step o).run s = .error .ended ((s.atCheck step o).pend .stack) := by
  have hp : (ptr o.reg).run s = .ok (s.readW o.reg) s := by
    show (if s.initialised o.reg then _ else _) = _
    rw [hi]; rfl
  unfold operandAddress State.atCheck
  rw [run_bind_ok hp, run_bind_ok (run_readW b s), hs]
  by_cases hpre : o.mode.isPre = true
  · have hbad' : (s.modified step o).stackBad ((s.modified step o).readW o.reg)
        (o.mode.wraps (s.readW o.reg) (s.readW b) step) = true := by
      rw [readW_modified_pre b hpre, (modified_sameRest s step o).stackBad]
      exact hbad
    have hd' : (s.modified step o).dev.faultingAccessPerformed = false := by
      rw [(modified_sameRest s step o).dev, hd]
    rw [if_pos hpre, if_pos hpre, run_bind_ok (run_modifyPointer _ _ s), run_bind_ok (run_readW _ _)]
    exact run_bind_error (checkStack_fails hbad' hd')
  · have he : s.effective b step o = o.mode.ea (s.readW o.reg) (s.readW b) step := by
      simp [State.effective, hpre]
    rw [if_neg hpre, if_neg hpre, ← he]
    exact run_bind_error (checkStack_fails hbad hd)

/-- Right after a write of SPLIM no source operand has an address in which W15 takes part (R570). -/
theorem sourceAddress_afterSplim (hs : o.usesStack b = true) (hl : s.last.splim = true) (step : Word) :
    ∃ t, (sourceAddress b step o).run s = .error (.refused .splimThenW15Read) t := by
  unfold sourceAddress
  by_cases hr : o.reg = 15
  · exact ⟨s, by rw [hr, run_bind_error (sourceThrough_afterSplim hl)]⟩
  · have hne : (o.reg == 15) = false := beq_eq_false_iff_ne.2 hr
    obtain ⟨hm, rfl⟩ : o.mode = .offset ∧ b = 15 := by
      rwa [Operand.usesStack, hne, Bool.false_or, Bool.and_eq_true, beq_iff_eq, beq_iff_eq] at hs
    refine ⟨s.markSrcEa o.reg, ?_⟩
    rw [run_bind_ok (sourceThrough_ok (by rw [hne, Bool.false_and])), if_pos hm]
    exact run_bind_error (sourceThrough_afterSplim hl)

theorem sourceAddress_stackError (hl : s.last.splim = false) (hi : s.initialised o.reg = true)
    (hs : o.usesStack b = true) (hbad : s.operandBad b step o = true) (hd : s.dev.faultingAccessPerformed = false) :
    (sourceAddress b step o).run s = .error .ended (((s.sourceMarked b o).atCheck step o).pend .stack) := by
  have hbad' : (s.sourceMarked b o).operandBad b step o = s.operandBad b step o := by
    unfold State.sourceMarked
    split <;> rfl
  obtain ⟨-, hinit⟩ := sourceMarked_kept s b o
  rw [sourceAddress_eq step (by rw [hl, Bool.and_false])]
  exact operandAddress_stackError ((hinit _).trans hi) hs (hbad'.trans hbad)
    (by rwa [(sourceMarked_sameRest s b o).dev])

/-! ### MOV with an operand through W15 -/

theorem exec_mov_afterSplim (ho : o.isDirect = false) (hs : o.usesStack b = true) (hl : s.last.splim = true)
    {dst : Operand} (hc : conflicts o dst = false) :
    exec (.mov b byte dst o) s = .refused .splimThenW15Read := by
  obtain ⟨t, ht⟩ := sourceAddress_afterSplim hs hl (stepOf byte)
  have hread : (readOperand b byte o).run s = .error (.refused .splimThenW15Read) t := by
    rw [readOperand, if_neg (Bool.eq_false_iff.1 ho), run_bind_error ht]
  exact exec_mov_source_stops hc hread

/-- MOV ends where its source operand fails the stack check (R210, R503). -/
theorem exec_mov_source_stackError (ho : o.isDirect = false) (hs : o.usesStack b = true)
    (hi : s.initialised o.reg = true) (hbad : s.operandBad b (stepOf byte) o = true)
    (hd : s.dev.faultingAccessPerformed = false) (hl : s.last.splim = false) {dst : Operand}
    (hc : conflicts o dst = false) :
    ∃ t, exec (.mov b byte dst o) s = .next t ∧ EndsInStackError s o t := by
  have hread : (readOperand b byte o).run s =
      .error .ended (((s.sourceMarked b o).atCheck (stepOf byte) o).pend .stack) := by
    rw [readOperand, if_neg (Bool.eq_false_iff.1 ho), run_bind_error (sourceAddress_stackError hl hi hs hbad hd)]
  exact ⟨_, exec_mov_source_stops hc hread, (endsInStackError_atCheck _ _ o).of_sourceMarked⟩

/-- MOV of a register ends where its destination operand fails the stack check (R210, R503). -/
theorem exec_mov_dest_stackError (ho : o.isDirect = false) (hs : o.usesStack b = true)
    (hi : s.initialised o.reg = true) (hbad : s.operandBad b (stepOf byte) o = true)
    (hd : s.dev.faultingAccessPerformed = false) (r : RegNum) :
    ∃ t, exec (.mov b byte o ⟨.direct, r⟩) s = .next t ∧ EndsInStackError s o t := by
  have hwrite (v : Word) : (writeOperand b byte o v).run s =
      .error .ended ((s.atCheck (stepOf byte) o).pend .stack) := by
    rw [writeOperand, if_neg (Bool.eq_false_iff.1 ho), run_bind_error (operandAddress_stackError hi hs hbad hd)]
  exact ⟨_, exec_mov_dest_stops (src := ⟨.direct, r⟩) rfl rfl (hwrite _), endsInStackError_atCheck s _ o⟩

end

end Sys2Proof.Machine

namespace Sys2Proof.Proofs

open Sys2Proof.Machine

/-- Settles O56: the candidate is a request of highest level, and the requests are the pending traps and `irq`. -/
theorem exceptionAcceptance : Obligations.ExceptionAcceptance :=
  ⟨fun _ => ⟨rfl, rfl, rfl, rfl, fun _ => decide_eq_true_iff⟩, fun _ =>
    ⟨fun _ => trap_of_accepted, fun _ => irq_of_accepted, fun _ => accepted_of_trap, fun _ => accepted_of_irq⟩⟩

/-- Settles O59: the step above PROG_TOP is `missingInstruction`. -/
theorem illegalAddress : Obligations.IllegalAddress := by
  refine fun s => ⟨fun h => if_pos h, fun hr ha htop hpc => ?above⟩
  case above =>
    have hfetch : s.fetch = .missing 1 := by
      have himpl : s.progImplemented s.pc = false := decide_eq_false (Nat.not_le.2 htop)
      rw [State.fetch, State.fetchAt, himpl]
      rfl
    have hstep : step s = missingInstruction 1 s := by
      rw [step_eq_stepInstr hr ha, stepInstr, hfetch]
    refine ⟨_, hstep.trans (advance_next hpc), rfl, ?pc, rfl, rfl, rfl⟩
    case pc =>
      show BitVec.ofNat 23 (s.pc.toNat + 2) = s.pc + 2
      bv_omega

/-- Settles O57: the entry stacks two words, which `framePushed_eq` reads as two pushes, and then sets the level, the pc
and the marks. -/
theorem exceptionEntry : Obligations.ExceptionEntry := by
  intro s e sp hreset hacc hsp hwf hlo hhi hb
  have he := even_of_writable hlo
  obtain ⟨hpointer, hlow, hhigh, hram⟩ :=
    pushed_twice_words (lo := pcLow s.pc) (hi := s.stackedStatus s.pc) hwf hsp he hb
  refine ⟨_, step_accepted hreset hacc hsp hlo hhi, ?_⟩
  rw [framePushed_eq hsp he]
  have hrest : SameRest s ((s.pushed (pcLow s.pc)).pushed (s.stackedStatus s.pc)) := pushed_twice_sameRest
  have hregs : RegsKept s ((s.pushed (pcLow s.pc)).pushed (s.stackedStatus s.pc)) [15] := pushed_twice_regsKept
  have hsr : ((s.pushed (pcLow s.pc)).pushed (s.stackedStatus s.pc)).sr = s.sr := rfl
  have hfree : ((s.pushed (pcLow s.pc)).pushed (s.stackedStatus s.pc)).free = s.free := rfl
  generalize (s.pushed (pcLow s.pc)).pushed (s.stackedStatus s.pc) = u at *
  obtain ⟨hpc, hcur, hlast⟩ := enteredOn_control hrest (s.framedTraps sp) e
  obtain ⟨hsr', hsrh⟩ := enteredOn_sr hrest hsr (s.framedTraps sp) e
  refine ⟨?low, ?high, ?pointer, ?registers, ?ram, hsr', hsrh, hpc, hcur, enteredOn_sameRest hrest _ e, ?free, hlast,
    fun x hx => ?trap, fun n hn => ?irq, fun hne => ?stack⟩
  case low => rw [enteredOn_load]; exact hlow
  case high => rw [enteredOn_load]; exact hhigh
  case pointer => rw [enteredOn_readW]; exact hpointer
  case registers => exact hregs.trans (enteredOn_regsKept (u.withTraps _) s e)
  case ram =>
    intro k hk
    rw [enteredOn_data]
    exact hram k hk
  case free => rw [enteredOn_free]; exact hfree
  case trap =>
    subst hx
    obtain ⟨hcorcon, hipl, hirq, htraps⟩ := enteredOn_trap hrest (s.framedTraps sp) x
    rw [htraps]
    exact ⟨hcorcon, hipl, hirq, has_put_same _ x false, fun y hy hne =>
      (has_put_other _ hy false).trans (framedTraps_other hne)⟩
  case irq =>
    subst hn
    obtain ⟨hcorcon, hirq, hnested, hipl, htraps⟩ := enteredOn_irq hrest (s.framedTraps sp) n
    rw [htraps]
    exact ⟨hcorcon, hirq, hnested, hipl, fun y => framedTraps_other⟩
  case stack =>
    have hkept : ((u.withTraps (s.framedTraps sp)).enteredOn s e).pendingTraps.has .stack =
        (s.framedTraps sp).has .stack := by
      cases e with
      | trap x => exact has_put_other _ (fun h => hne (congrArg Exc.trap h.symm)) false
      | irq n => rfl
    rw [hkept, framedTraps_stack]

/-- Settles O25: a stack check that fails is where a push, a pop and the address of an operand stop, or go on with
StackError pending; the rule about a write of SPLIM comes before it. -/
theorem stackErrors : Obligations.StackErrors := by
  refine fun s r d b target off k byte lit o i u => ⟨fun hout => ?pushes, fun hi => ?pops, fun ho hs =>
    ⟨fun hc hl => exec_mov_afterSplim ho hs hl hc, fun hinit hd hout hi => ?operands⟩⟩
  case pushes =>
    have hbad := stackBad_of_outside hout false
    exact ⟨exec_push_stackError r k hbad, fun hd hw =>
      outcome_ok ((run_bind_ok (run_readW r s)).trans (push_performed hbad hd hw _))⟩
  case pops =>
    have hpops : PopsFirst s i u ∧ ∀ d', i = .pop d' → d' ≠ 15 ∧ u = s := by
      rcases hi with ⟨rfl, hd, rfl⟩ | ⟨rfl, rfl⟩ | ⟨rfl, rfl⟩ | ⟨rfl, hd, rfl⟩ | ⟨rfl, rfl⟩
      case inl => exact ⟨.pop u hd, fun d' h => ⟨Instr.pop.inj h ▸ hd, rfl⟩⟩
      case inr.inl => exact ⟨.ret u, nofun⟩
      case inr.inr.inl => exact ⟨.retfie u, nofun⟩
      case inr.inr.inr.inl => exact ⟨.retlw s byte lit hd, nofun⟩
      case inr.inr.inr.inr => exact ⟨.ulnk s, nofun⟩
    obtain ⟨hfirst, hpop⟩ := hpops
    refine ⟨hfirst.afterSplim, fun hl hout => ?_⟩
    have hbad := hfirst.stackBad hout
    refine ⟨hfirst.stackError hl hbad, fun hd hr he => ?_⟩
    obtain ⟨h15, rfl⟩ := hpop d he
    rw [he]
    exact exec_pop_performed h15 hl hbad hd hr
  case operands =>
    have hbad := operandBad_of_outside hout
    have hends : ∃ t, exec i s = .next t ∧ EndsInStackError s o t := by
      rcases hi with ⟨rfl, hl, hc⟩ | rfl
      · exact exec_mov_source_stackError ho hs hinit hbad hd hl hc
      · exact exec_mov_dest_stackError ho hs hinit hbad hd d
    obtain ⟨t, ht, hend⟩ := hends
    exact ⟨t, ht, hend.traps, hend.registers, hend.data, hend.sr⟩

end Sys2Proof.Proofs
end
